-- ==== Sys2Proof/Word.lean ====
section
/-! DEFINITION. The word types of the SLDC (spec/00_scope.md R10): bit 0 is the least significant bit,
every register value is an unsigned number of its width. -/

namespace Sys2Proof

/-- One byte of the packet or of the reading (spec/10_state.md R22, R42). -/
abbrev Byte := BitVec 8

/-- One word of the register bus (spec/20_memory.md R50). -/
abbrev Word := BitVec 32

/-- The address of a word on the register bus (spec/20_memory.md R50). -/
abbrev BusAddr := BitVec 6

end Sys2Proof
end

