-- ==== Sys2Proof/Config.lean ====
section
/-! DEFINITION. What an implementation of the SLDC fixes: the parameters of spec/00_scope.md R6 to R8, and
the one value the spec leaves to the environment, the sample of `rx` (spec/60_exceptions.md R217). -/

namespace Sys2Proof

/-- The parameters of spec/00_scope.md R6 (timings, in ticks of one microsecond) and R7 (level estimator).
A machine's parameter set stands in its state and no step changes it (assumption 4). The fixed
parameters `T_THRESH`, `ONE` and the sizes of R8 are constants of `Config`. -/
structure Params where
  /-- `T_CHARGE`, the charge interval (R6). -/
  tCharge : Nat
  /-- `T_ADDR_LOW`, the low part of an address pulse (R6). -/
  tAddrLow : Nat
  /-- `T_ADDR_HIGH`, the high part of an address pulse (R6). -/
  tAddrHigh : Nat
  /-- `T_FIRST`, the limit of the wait for the first pulse (R6). -/
  tFirst : Nat
  /-- `T_BIT`, the limit of every later wait and of a pulse (R6). -/
  tBit : Nat
  /-- `T_CALC`, the length of the CALC phase (R6). -/
  tCalc : Nat
  /-- `TX_LISTEN`, the level of `tx` while listening (R6). -/
  txListen : Bool
  /-- `NOISE_FLOOR` (R7). -/
  noiseFloor : Nat
  /-- `BASELINE` (R7). -/
  baseline : Nat
  /-- `DAMP_Q8`, the damping constant times 256 (R7). -/
  dampQ8 : Nat
  /-- `CAP_TOP`, the cap of the last wet segment, UQ4.12 (R7). -/
  capTop : Nat
deriving DecidableEq, Repr

namespace Config

/-- The reference configuration: the column "default" of spec/00_scope.md R6 and R7. -/
def reference : Params where
  tCharge := 2000
  tAddrLow := 85
  tAddrHigh := 300
  tFirst := 16000
  tBit := 200
  tCalc := 1
  txListen := false
  noiseFloor := 16
  baseline := 255
  dampQ8 := 230
  capTop := 4608

/-- `T_THRESH` of spec/00_scope.md R6, fixed by the source. -/
def tThresh : Nat := 26

/-- `ONE` of spec/00_scope.md R7: 1.0 in UQ4.12. -/
def one : Nat := 4096

/-- `IDLE_MAX` of spec/00_scope.md R8: the saturation value of the pacing counter. -/
def idleMax : Nat := 16777215

/-- The identification word of spec/10_state.md R37. -/
def idWord : Word := 0x534C4431#32

/-- DESIGN CHOICE (assumption 3). A free value: the sample of `rx` at edge `t` when the queue of inputs of the
state says nothing of that edge. spec/60_exceptions.md R217 makes `rx` an arbitrary stream. -/
opaque freeRx : Nat → Bool

end Config

end Sys2Proof
end

