-- ==== Sys2Proof/Syntax.lean ====
section
/-! DEFINITION. The commands of the SLDC, one constructor per row of spec/opcode_table.json
(spec/30_encoding.md R70). No command has an operand in its word. -/

namespace Sys2Proof

/-- The five commands the host writes to `CMD` (spec/30_encoding.md R70). -/
inductive Instr where
  /-- `NOP`, code 0 (R171). -/
  | nop
  /-- `READ`, code 1 (R172 to R176). -/
  | read
  /-- `LEVEL`, code 2 (R178). -/
  | level
  /-- `VOLUME`, code 3 (R179). -/
  | volume
  /-- `CLEAR`, code 4 (R181). -/
  | clear
deriving DecidableEq, Repr

end Sys2Proof
end

