-- ==== Sys2Proof/WellFormed.lean ====
section
/-! DEFINITION. What is well formed: a command (always, for it has no operand) and a parameter set
(spec/00_scope.md R6, R7, R9: "A parameter set outside the legal ranges ... is not an SLDC"). -/

namespace Sys2Proof

/-- A command has no operand field (spec/30_encoding.md R70), so every term of `Instr` is well formed. -/
def Instr.wellFormed : Instr → Bool
  | .nop => true
  | .read => true
  | .level => true
  | .volume => true
  | .clear => true

/-- The legal ranges of the wire timings, column "legal range" of spec/00_scope.md R6. -/
def Params.timingLegal (p : Params) : Bool :=
  decide (1500 ≤ p.tCharge ∧ p.tCharge ≤ 3000)
    && decide (1 ≤ p.tAddrLow ∧ p.tAddrLow ≤ 65535)
    && decide (1 ≤ p.tAddrHigh ∧ p.tAddrHigh ≤ 65535)
    && decide (14000 ≤ p.tFirst ∧ p.tFirst ≤ 20000)
    && decide (27 ≤ p.tBit ∧ p.tBit ≤ 65535)
    && decide (1 ≤ p.tCalc ∧ p.tCalc ≤ 65535)

/-- The legal ranges of the estimator's constants, column "legal range" of spec/00_scope.md R7. -/
def Params.estimatorLegal (p : Params) : Bool :=
  decide (1 ≤ p.noiseFloor ∧ p.noiseFloor ≤ 255)
    && decide (1 ≤ p.baseline ∧ p.baseline ≤ 255)
    && decide (1 ≤ p.dampQ8 ∧ p.dampQ8 ≤ 255)
    && decide (4096 ≤ p.capTop ∧ p.capTop ≤ 8191)

/-- A legal parameter set (spec/00_scope.md R9). A step refuses every other one (assumption 5). -/
def Params.legal (p : Params) : Bool := p.timingLegal && p.estimatorLegal

end Sys2Proof
end

