-- ==== Sys2Proof/Decode.lean ====
section
/-! DEFINITION. The command word of spec/30_encoding.md R70: the decoder, total on every 32-bit word, which
rejects the reserved codes by name (R71), and after it the encoder. -/

namespace Sys2Proof

/-- Why a command word is no command. -/
inductive DecodeError where
  /-- The code is one of `0x5` to `0xF` (spec/30_encoding.md R71). Raised by `decode`. Safe: the machine goes on and
  sets `ILL`, as R71 says. -/
  | reservedCode (opc : BitVec 4)
deriving DecidableEq, Repr

/-- The field `OPC`, bits 3:0 of the command word (spec/30_encoding.md R70). -/
def opcField (w : Word) : BitVec 4 := w.extractLsb' 0 4

/-- The command a word written to `CMD` stands for (spec/30_encoding.md R70, R71). Bits 31:4 are ignored. -/
def decode (w : Word) : Except DecodeError Instr :=
  match (opcField w).toNat with
  | 0 => .ok .nop
  | 1 => .ok .read
  | 2 => .ok .level
  | 3 => .ok .volume
  | 4 => .ok .clear
  | _ => .error (.reservedCode (opcField w))

/-- The code of a command, the table of spec/30_encoding.md R70. -/
def opcOf : Instr → BitVec 4
  | .nop => 0#4
  | .read => 1#4
  | .level => 2#4
  | .volume => 3#4
  | .clear => 4#4

/-- The word software writes for a command: bits 31:4 are 0 (spec/30_encoding.md R70). -/
def encode (i : Instr) : Word := (opcOf i).setWidth 32

/-- The 32-bit word whose low `nbits` bits are those of `w` and whose other bits are 0. A command is one word of
the bus (spec/20_memory.md R56), so there is no byte order to lay out. -/
def tableWord (nbits w : Nat) : Word := BitVec.ofNat 32 (w % 2 ^ nbits)

/-- The command the decoder reads from an opcode-table word (assumption 14). -/
def decodeTableWord (nbits w : Nat) : Option Instr :=
  match decode (tableWord nbits w) with
  | .ok i => some i
  | .error _ => none

end Sys2Proof
end

