-- ==== Sys2Proof/Machine/State.lean ====
section
/-! DEFINITION. The state of the SLDC: every element of spec/10_state.md R20, grouped as that file groups them, and
the model's own fields `params`, `inputs` and `edge`; the reasons a step can stop; the reset state (R44). -/

namespace Sys2Proof.Machine

/-- The sequencer positions of spec/10_state.md R40, in the order of their codes 0 to 7. -/
inductive Phase where
  /-- No command in flight. -/
  | idle
  /-- One tick: sample the idle line. -/
  | precheck
  /-- The charge interval. -/
  | charge
  /-- Low part of an address pulse. -/
  | addrLow
  /-- High part of an address pulse. -/
  | addrHigh
  /-- Listening: waiting for `rx = 1`. -/
  | waitHigh
  /-- Listening: counting ticks while `rx = 1`. -/
  | measHigh
  /-- Compute and commit. -/
  | calc
deriving DecidableEq, Repr

/-- The command in flight, the codes 0 to 3 of `op` (spec/10_state.md R41). Code 0 is the reset value and names no
command. -/
inductive Op where
  | none
  | read
  | level
  | volume
deriving DecidableEq, Repr

/-- The six errors of spec/60_exceptions.md R200. -/
inductive ErrorKind where
  /-- Idle line low at the precheck (R201). -/
  | interfaceFault
  /-- Line low at the end of the charge (R202). -/
  | shortCircuit
  /-- No pulse within the first wait (R203). -/
  | noResponse
  /-- A later wait or a pulse too long (R204). -/
  | timeout
  /-- The checksum does not match (R205). -/
  | checksumMismatch
  /-- READ requested too soon (R207). -/
  | rateLimited
deriving DecidableEq, Repr

/-- What the block samples at one edge (spec/00_scope.md R12, spec/20_memory.md R50). -/
structure Inputs where
  /-- The sense pin. -/
  rx : Bool
  /-- Synchronous reset. -/
  rst : Bool
  /-- Access strobe of the bus. -/
  sel : Bool
  /-- 1 write, 0 read. -/
  we : Bool
  /-- Word address. -/
  addr : BusAddr
  /-- Write data. -/
  wdata : Word
deriving DecidableEq, Repr

/-- The registers the host writes: `CFG`, `PACE` and the calibration table (spec/10_state.md R32, R33, R38). The two
fields that take only some values of their width have those values as their type (assumption 6). -/
structure HostRegs where
  /-- `CFG.ADDR`, the tank address. -/
  addr : BitVec 4
  /-- `CFG.SEGCNT`, 0 to 10. -/
  segcnt : Fin 11
  /-- `CFG.NPOINTS`, 0 to 16. -/
  npoints : Fin 17
  /-- `CFG.INVERT`. -/
  invert : Bool
  /-- `PACE.MIN_PAUSE`, in ticks. -/
  minPause : BitVec 24
  /-- `CAL_LEVEL[0..15]`, UQ4.12. -/
  calLevel : Vector (BitVec 16) 16
  /-- `CAL_VOL[0..15]`. -/
  calVol : Vector (BitVec 24) 16
deriving DecidableEq, Repr

/-- The registers that only a commit writes (spec/10_state.md R22 to R24, R28, R30, R34). -/
structure Results where
  /-- `SEG[0..9]`, index 0 the topmost segment (R22). -/
  seg : Vector Byte 10
  /-- `SEG_VALID` (R28). -/
  segValid : Bool
  /-- `LEVEL`, UQ4.12 (R23). -/
  level : BitVec 16
  /-- `LEVEL_VALID` (R28). -/
  levelValid : Bool
  /-- `VOLUME`, two's complement (R24). -/
  volume : BitVec 32
  /-- `VOL_VALID` (R28). -/
  volValid : Bool
  /-- `CS_EXP`, the header's checksum field (R34). -/
  csExp : BitVec 12
  /-- `CS_ACT`, the sum of the payload bytes (R34). -/
  csAct : BitVec 16
  /-- `CSV` (R30). -/
  csv : Bool
  /-- `ERR` (R30). -/
  err : BitVec 3
deriving DecidableEq, Repr

/-- The hidden state of the sequencer (spec/10_state.md R40 to R42). -/
structure Sequencer where
  /-- The position in the protocol (R40). -/
  phase : Phase
  /-- Ticks spent in the phase (R41). -/
  cnt : BitVec 16
  /-- Address pulses still to finish (R41). -/
  pulse : BitVec 4
  /-- Bits already shifted into the current byte (R41). -/
  bitn : BitVec 3
  /-- Index of the byte being received, 0 to 11 (R41, R43 (g); assumption 6). -/
  byten : Fin 12
  /-- 1 until the first pulse of the attempt (R41). -/
  first : Bool
  /-- The command in flight (R41). -/
  op : Op
  /-- The byte being shifted in (R42). -/
  sh : Byte
  /-- The packet buffer (R42). -/
  pkt : Vector Byte 12
deriving DecidableEq, Repr

/-- The state of the SLDC: the elements of spec/10_state.md R20 and the model's own fields `params`, `inputs` and
`edge`. -/
structure State where
  /-- The drive pin (R21). -/
  tx : Bool
  /-- `DONE`, also the pin `done` (R27, spec/60_exceptions.md R211). -/
  done : Bool
  /-- `OVR`, a write was dropped while busy (R29). -/
  ovr : Bool
  /-- `ILL`, a reserved command code was written (R29). -/
  ill : Bool
  /-- The registers only a commit writes. -/
  res : Results
  /-- The registers the host writes. -/
  cfg : HostRegs
  /-- `idle_us`, ticks since the last attempt's commit, saturating (R39). -/
  idleUs : BitVec 24
  /-- The sequencer. -/
  seq : Sequencer
  /-- The model's own: the parameter set of the instance, which no step changes (assumption 4). -/
  params : Params
  /-- The model's own: the inputs of the coming edges, the next edge's first (assumption 1). -/
  inputs : List Inputs
  /-- The model's own: the number of the coming edge (spec/00_scope.md R12; assumption 17). -/
  edge : Nat
deriving DecidableEq, Repr

/-- Why the machine would stop. spec/30_encoding.md R83 gives the block no fault state, so the one reason here belongs
to a state that no run reaches. -/
inductive Fault where
  /-- CALC ends with command code 0 in flight. spec/43_orchestrator_and_commands.md R180 commits according to `op` and
  lists 1, 2 and 3. Raised by `calcPhase`. Safe: no run from reset reaches such a state (assumption 7). -/
  | calcWithoutCommand
deriving DecidableEq, Repr

/-- Why the model gives no meaning. -/
inductive Refusal where
  /-- An arm of `exec` without a meaning. Raised by no arm: all five commands have theirs. Safe. -/
  | notModelled (mnemonic : String)
  /-- The parameter set is outside the legal ranges (spec/00_scope.md R9: "A model refuses to instantiate it"). Raised by
  `step`. Safe: such a block is not an SLDC (assumption 5). -/
  | illegalParameters
deriving DecidableEq, Repr

/-- The results after reset (spec/10_state.md R44). -/
def Results.reset : Results where
  seg := Vector.replicate 10 0#8
  segValid := false
  level := 0#16
  levelValid := false
  volume := 0#32
  volValid := false
  csExp := 0#12
  csAct := 0#16
  csv := false
  err := 0#3

/-- The host's registers after reset (spec/10_state.md R44). -/
def HostRegs.reset : HostRegs where
  addr := 0#4
  segcnt := 10
  npoints := 0
  invert := false
  minPause := 1000000#24
  calLevel := Vector.replicate 16 0#16
  calVol := Vector.replicate 16 0#24

/-- The sequencer after reset (spec/10_state.md R44). -/
def Sequencer.reset : Sequencer where
  phase := .idle
  cnt := 0#16
  pulse := 0#4
  bitn := 0#3
  byten := 0
  first := false
  op := .none
  sh := 0#8
  pkt := Vector.replicate 12 0#8

/-- The reset state (spec/10_state.md R44, spec/70_reset_and_hazards.md R230), with the reference parameters, no input
queued and edge number 0 (assumptions 1, 4, 17). -/
def State.reset : State where
  tx := false
  done := false
  ovr := false
  ill := false
  res := Results.reset
  cfg := HostRegs.reset
  idleUs := 16777215#24
  seq := Sequencer.reset
  params := Config.reference
  inputs := []
  edge := 0

end Sys2Proof.Machine
end

