-- ==== Sys2Proof/Machine/Flags.lean ====
section
/-! DEFINITION. The flags: `BUSY`, the error codes and the word `STATUS` (spec/10_state.md R25 to R30,
spec/60_exceptions.md R200). -/

namespace Sys2Proof.Machine

/-- `BUSY = 1` exactly when `phase != IDLE` (spec/10_state.md R26). -/
def busy (s : State) : Bool := decide (s.seq.phase ≠ .idle)

/-- The outcome code of each error (spec/60_exceptions.md R200). Code 0 is success and code 7 is never produced. -/
def errorCode : ErrorKind → BitVec 3
  | .interfaceFault => 1#3
  | .shortCircuit => 2#3
  | .noResponse => 3#3
  | .timeout => 4#3
  | .checksumMismatch => 5#3
  | .rateLimited => 6#3

/-- The word `STATUS` (spec/10_state.md R25): from bit 31 down, 21 reserved bits, `ERR`, `CSV`, `ILL`, `OVR`,
`VOL_VALID`, `LEVEL_VALID`, `SEG_VALID`, `DONE`, `BUSY`. -/
def statusWord (s : State) : Word :=
  0#21 ++ s.res.err ++ BitVec.ofBool s.res.csv ++ BitVec.ofBool s.ill ++ BitVec.ofBool s.ovr
    ++ BitVec.ofBool s.res.volValid ++ BitVec.ofBool s.res.levelValid ++ BitVec.ofBool s.res.segValid
    ++ BitVec.ofBool s.done ++ BitVec.ofBool (busy s)

end Sys2Proof.Machine
end

