-- ==== Sys2Proof/Machine/Operands.lean ====
section
/-! DEFINITION. The operands of the commands, which stand in registers and in the packet and not in the command word:
the fields of `CFG` and `PACE` with the values they store (spec/10_state.md R32, R33), the packet's checksum
field, sum and payload (spec/30_encoding.md R74, spec/40_wire_decoder.md R116, R118), the calibration points in
use (spec/42_volume_interpolator.md R150). -/

namespace Sys2Proof.Machine

/-- What a write of `v` stores in `CFG.SEGCNT`: 11 to 15 are stored as 10 (spec/10_state.md R32). -/
def segcntStored (v : BitVec 4) : Fin 11 := ⟨min v.toNat 10, by omega⟩

/-- What a write of `v` stores in `CFG.NPOINTS`: 17 to 31 are stored as 16 (spec/10_state.md R32). -/
def npointsStored (v : BitVec 5) : Fin 17 := ⟨min v.toNat 16, by omega⟩

/-- The word `CFG` (spec/10_state.md R32). -/
def cfgWord (c : HostRegs) : Word :=
  0#15 ++ BitVec.ofBool c.invert ++ 0#3 ++ BitVec.ofNat 5 c.npoints.val ++ BitVec.ofNat 4 c.segcnt.val ++ c.addr

/-- A write of `CFG` (spec/20_memory.md R58). -/
def HostRegs.writeCfg (c : HostRegs) (w : Word) : HostRegs :=
  { c with
    addr := w.extractLsb' 0 4
    segcnt := segcntStored (w.extractLsb' 4 4)
    npoints := npointsStored (w.extractLsb' 8 5)
    invert := w.getLsbD 16 }

/-- A write of `PACE` (spec/20_memory.md R58). -/
def HostRegs.writePace (c : HostRegs) (w : Word) : HostRegs := { c with minPause := w.extractLsb' 0 24 }

/-- A write of `CAL_LEVEL[k]` (spec/20_memory.md R58). -/
def HostRegs.writeCalLevel (c : HostRegs) (k : Fin 16) (w : Word) : HostRegs :=
  { c with calLevel := c.calLevel.set k.val (w.extractLsb' 0 16) k.isLt }

/-- A write of `CAL_VOL[k]` (spec/20_memory.md R58). -/
def HostRegs.writeCalVol (c : HostRegs) (k : Fin 16) (w : Word) : HostRegs :=
  { c with calVol := c.calVol.set k.val (w.extractLsb' 0 24) k.isLt }

/-- The 16-bit header: packet byte 0 is the more significant byte (spec/20_memory.md R53). The one place that decides
the order (assumption 11). -/
def headerWord (pkt : Vector Byte 12) : BitVec 16 := pkt[0] ++ pkt[1]

/-- `EXP`, the checksum field of the header; its upper four bits are used by nothing (spec/30_encoding.md R74). -/
def checksumField (pkt : Vector Byte 12) : BitVec 12 := (headerWord pkt).extractLsb' 0 12

/-- The reading a packet carries: `SEG[i] = pkt[2 + i]` (spec/20_memory.md R54). -/
def payload (pkt : Vector Byte 12) : Vector Byte 10 := Vector.ofFn fun i => pkt[2 + i.val]

/-- `ACT`, the sum of packet bytes 2 to 11 in a 16-bit accumulator (spec/40_wire_decoder.md R116). -/
def payloadSum (pkt : Vector Byte 12) : BitVec 16 :=
  (payload pkt).toList.foldl (fun acc b => acc + b.setWidth 16) 0#16

/-- `match`: the low 12 bits of the sum equal the checksum field (spec/40_wire_decoder.md R116). -/
def checksumMatches (pkt : Vector Byte 12) : Bool := decide ((payloadSum pkt).extractLsb' 0 12 = checksumField pkt)

/-- One breakpoint of the calibration curve (spec/42_volume_interpolator.md R150). -/
structure CalPoint where
  /-- `CAL_LEVEL[k]` as a number. -/
  level : Nat
  /-- `CAL_VOL[k]` as a number. -/
  vol : Nat
deriving DecidableEq, Repr

/-- The breakpoints in use, entries `0 .. NPOINTS-1` (spec/10_state.md R38, spec/42_volume_interpolator.md R150). -/
def calPoints (c : HostRegs) : List CalPoint :=
  (List.zipWith (fun l v => CalPoint.mk l.toNat v.toNat) c.calLevel.toList c.calVol.toList).take c.npoints.val

end Sys2Proof.Machine
end

