-- ==== Sys2Proof/Machine/Estimator.lean ====
section
/-! DEFINITION. The level estimator, spec/41_level_estimator.md: the rules R131 to R136 piece by piece, and beside them
the sequential listing of that file's section 3, which the rules govern. -/

namespace Sys2Proof.Machine

/-- The entries scanned, in scan order `r[n-1], ..., r[0]` (R131). -/
def scanOrder (r : Vector Byte 10) (n : Nat) : List Nat := ((r.toList.map BitVec.toNat).take n).reverse

/-- The wet segments, in scan order: the scan ends at the first value strictly below the noise floor (R132). -/
def wetSegments (p : Params) (r : Vector Byte 10) (n : Nat) : List Nat :=
  (scanOrder r n).takeWhile fun v => decide (p.noiseFloor ≤ v)

/-- The contribution of a wet segment of value `v` above the reference `prior`, UQ4.12 before capping (R134). -/
def contribution (p : Params) (v prior : Nat) : Nat := v * 2 ^ 20 / (prior * p.dampQ8)

/-- The contributions of wet segments, each compared with the one before it and the first with `prior` (R133). -/
def contributions (p : Params) (prior : Nat) : List Nat → List Nat
  | [] => []
  | v :: rest => contribution p v prior :: contributions p v rest

/-- The capped contributions: the last one at `CAP_TOP`, every one before it at `ONE` (R135). -/
def cappedContributions (p : Params) : List Nat → List Nat
  | [] => []
  | [c] => [min c p.capTop]
  | c :: rest => min c Config.one :: cappedContributions p rest

/-- `EstimateLevel(r, n)` (R130): the sum of the capped contributions, saturated at `n * ONE` (R136). -/
def estimateLevel (p : Params) (r : Vector Byte 10) (n : Nat) : Nat :=
  min (cappedContributions p (contributions p p.baseline (wetSegments p r n))).sum (n * Config.one)

/-- The loop of the listing of section 3, over the entries still to scan. -/
def scanLoop (p : Params) : (prior acc pend : Nat) → List Nat → Nat
  | _, acc, pend, [] => acc + pend
  | prior, acc, pend, v :: rest =>
    if v < p.noiseFloor then acc + pend
    else scanLoop p v (acc + min pend Config.one) (min (contribution p v prior) p.capTop) rest

/-- The sequential listing of section 3 of spec/41_level_estimator.md. -/
def estimateLevelSequential (p : Params) (r : Vector Byte 10) (n : Nat) : Nat :=
  min (scanLoop p p.baseline 0 0 (scanOrder r n)) (n * Config.one)

end Sys2Proof.Machine
end

