-- ==== Sys2Proof/Machine/Interpolator.lean ====
section
/-! DEFINITION. The volume interpolator, spec/42_volume_interpolator.md R150 to R155. Volumes are exact integers here and
are narrowed once, when a commit stores them (R156; assumption 16). -/

namespace Sys2Proof.Machine

/-- The search: the least `k` whose level strictly exceeds `l`, or the number of points when there is none (R152). -/
def searchPoint (pts : List CalPoint) (l : Nat) : Nat := pts.findIdx fun c => decide (l < c.level)

/-- Entry `k` of the points in use. The default is never read: every use is at an index in range (assumption 16). -/
def pointAt (pts : List CalPoint) (k : Nat) : CalPoint := pts.getD k ⟨0, 0⟩

/-- Linear interpolation between two breakpoints, the product before the one floor division (R154). Lean's `/` on `Int`
rounds toward minus infinity when the divisor is positive. -/
def interpolate (low high : CalPoint) (l : Nat) : Int :=
  let dl : Int := (l : Int) - low.level
  let dL : Int := (high.level : Int) - low.level
  let dV : Int := (high.vol : Int) - low.vol
  (low.vol : Int) + dl * dV / dL

/-- `W`, the volume before inversion: clamped below the first and at or above the last breakpoint (R153), interpolated
between (R154). -/
def plainVolume (pts : List CalPoint) (l : Nat) : Int :=
  let j := searchPoint pts l
  if j = 0 then (pointAt pts 0).vol
  else if j = pts.length then (pointAt pts (pts.length - 1)).vol
  else interpolate (pointAt pts (j - 1)) (pointAt pts j) l

/-- `EstimateVolume(lv, L, N, cal, inv)` (R150), `N` being the number of points: `(valid, V)`. Undefined for an undefined
level and for the empty table (R151); inverted against the last entry in use (R155). -/
def estimateVolume (lv : Bool) (l : Nat) (pts : List CalPoint) (inv : Bool) : Bool × Int :=
  if lv = false ∨ pts.length = 0 then (false, 0)
  else if inv = true then (true, (pointAt pts (pts.length - 1)).vol - plainVolume pts l)
  else (true, plainVolume pts l)

end Sys2Proof.Machine
end

