-- ==== Sys2Proof/Machine/Ops.lean ====
section
/-! DEFINITION. The operations the rules share: the error exit (TAKING AN EXCEPTION, spec/60_exceptions.md R206) and the
exit of a RateLimited READ (R207); a successful READ's commit and the two recomputations; the start of listening; the
pacing counter; the reset of an edge. There is no return from an exception (R210): the host's next command is it. -/

namespace Sys2Proof.Machine

/-- Applies a function to the next state of an outcome. -/
def mapNext (f : State → State) : Host.Outcome State Fault Refusal → Host.Outcome State Fault Refusal
  | .next s => .next (f s)
  | .fault r => .fault r
  | .refused r => .refused r

/-! ### Results -/

/-- The results of a READ that failed with `e` and recorded the checksum pair `exp`, `act` with flag `valid`
(spec/60_exceptions.md R206, spec/43_orchestrator_and_commands.md R173). -/
def Results.failed (e : ErrorKind) (exp : BitVec 12) (act : BitVec 16) (valid : Bool) : Results where
  seg := Vector.replicate 10 0#8
  segValid := false
  level := 0#16
  levelValid := false
  volume := 0#32
  volValid := false
  csExp := exp
  csAct := act
  csv := valid
  err := errorCode e

/-- The results with a new volume, as `EstimateVolume` gives it from level `l` with level-valid bit `lv` and the host's
registers (spec/43_orchestrator_and_commands.md R175, R178, R179). -/
def Results.withVolume (r : Results) (c : HostRegs) (lv : Bool) (l : Nat) : Results :=
  let e := estimateVolume lv l (calPoints c) c.invert
  { r with volume := BitVec.ofInt 32 e.2, volValid := e.1 }

/-- The results with a new level `l`, level-valid bit `lv`, and the volume computed from that same level
(spec/43_orchestrator_and_commands.md R175, R178). -/
def Results.withLevel (r : Results) (c : HostRegs) (lv : Bool) (l : Nat) : Results :=
  Results.withVolume { r with level := BitVec.ofNat 16 l, levelValid := lv } c lv l

/-- The results of a READ whose packet's checksum matched (spec/43_orchestrator_and_commands.md R175). -/
def Results.succeeded (p : Params) (c : HostRegs) (pkt : Vector Byte 12) (r : Results) : Results :=
  Results.withLevel
    { r with
      seg := payload pkt
      segValid := true
      csExp := checksumField pkt
      csAct := payloadSum pkt
      csv := true
      err := 0#3 }
    c true (estimateLevel p (payload pkt) c.segcnt.val)

/-! ### Exits of an attempt -/

/-- `raise E`, the error exit of a failing attempt (spec/60_exceptions.md R206): the checksum pair is kept for
ChecksumMismatch alone. -/
def errorExit (e : ErrorKind) (s : State) : State :=
  { s with
    tx := false
    done := true
    idleUs := 0#24
    res :=
      match e with
      | .checksumMismatch => Results.failed e (checksumField s.seq.pkt) (payloadSum s.seq.pkt) true
      | _ => Results.failed e 0#12 0#16 false
    seq.phase := .idle }

/-- The success commit of a READ (spec/43_orchestrator_and_commands.md R175). -/
def successCommit (s : State) : State :=
  { s with
    tx := false
    done := true
    idleUs := 0#24
    res := Results.succeeded s.params s.cfg s.seq.pkt s.res
    seq.phase := .idle }

/-- The RateLimited outcome (spec/43_orchestrator_and_commands.md R173): not an attempt, so `tx`, `phase` and `idle_us`
are not written. -/
def rateLimitedExit (s : State) : State :=
  { s with done := true, res := Results.failed .rateLimited 0#12 0#16 false }

/-! ### Commits of LEVEL and VOLUME -/

/-- The commit of LEVEL (spec/43_orchestrator_and_commands.md R178): no level without a reading (spec/41_level_estimator.md
R138). -/
def levelCommit (s : State) : State :=
  { s with
    done := true
    res :=
      if s.res.segValid = true then
        s.res.withLevel s.cfg true (estimateLevel s.params s.res.seg s.cfg.segcnt.val)
      else s.res.withLevel s.cfg false 0
    seq.phase := .idle }

/-- The commit of VOLUME (spec/43_orchestrator_and_commands.md R179). -/
def volumeCommit (s : State) : State :=
  { s with
    done := true
    res := s.res.withVolume s.cfg s.res.levelValid s.res.level.toNat
    seq.phase := .idle }

/-! ### Acceptance of a command -/

/-- The start of an attempt (spec/43_orchestrator_and_commands.md R172, R174). -/
def startAttempt (s : State) : State := { s with done := false, seq.phase := .precheck, seq.op := .read }

/-- The acceptance of LEVEL or VOLUME (spec/43_orchestrator_and_commands.md R178, R179). -/
def startCalc (o : Op) (s : State) : State :=
  { s with done := false, seq.phase := .calc, seq.cnt := 0#16, seq.op := o }

/-! ### The wire -/

/-- One more tick spent in the phase (`cnt <- cnt + 1`, spec/40_wire_decoder.md). -/
def countTick (s : State) : State := { s with seq.cnt := s.seq.cnt + 1#16 }

/-- Entering a phase with a level of `tx` and a value of `cnt` (`tx <- v; cnt <- c; phase <- P`). -/
def enterPhase (p : Phase) (v : Bool) (c : BitVec 16) (s : State) : State :=
  { s with tx := v, seq.cnt := c, seq.phase := p }

/-- `Listen()` (spec/40_wire_decoder.md R106). -/
def startListening (s : State) : State :=
  { s with
    tx := s.params.txListen
    seq.phase := .waitHigh
    seq.cnt := 0#16
    seq.first := true
    seq.byten := 0
    seq.bitn := 0#3
    seq.sh := 0#8 }

/-- The byte after one more bit: shift left by one, the bit enters at bit 0 (spec/40_wire_decoder.md R114). -/
def shiftIn (sh : Byte) (b : Bool) : Byte := sh.extractLsb' 0 7 ++ BitVec.ofBool b

/-- `Shift(b)` (spec/40_wire_decoder.md R114, R115). -/
def shiftBit (b : Bool) (s : State) : State :=
  let v := shiftIn s.seq.sh b
  if s.seq.bitn = 7#3 then
    let stored : State :=
      { s with
        seq.sh := v
        seq.bitn := 0#3
        seq.pkt := s.seq.pkt.set s.seq.byten.val v s.seq.byten.isLt }
    if s.seq.byten = 11 then enterPhase .calc false 0#16 { stored with seq.byten := 0 }
    else enterPhase .waitHigh s.tx 0#16 { stored with seq.byten := s.seq.byten + 1 }
  else enterPhase .waitHigh s.tx 0#16 { s with seq.sh := v, seq.bitn := s.seq.bitn + 1#3 }

/-! ### Every edge -/

/-- The pacing counter one edge later: it saturates and never wraps (spec/43_orchestrator_and_commands.md R177). -/
def pacingNext (idleUs : BitVec 24) : BitVec 24 := BitVec.ofNat 24 (min (idleUs.toNat + 1) Config.idleMax)

/-- What every edge without reset does whatever else happens: the pacing counter counts (R177; a commit of an attempt
overrides it), and the model's own queue and edge number move on. -/
def advance (s : State) : State :=
  { s with idleUs := pacingNext s.idleUs, inputs := s.inputs.tail, edge := s.edge + 1 }

/-- An edge with `rst = 1` (spec/70_reset_and_hazards.md R230): every element of R20 takes its reset value. The model's own
fields are not registers of the block: the parameters stay, the queue and the edge number move on. -/
def resetEdge (s : State) : State :=
  { State.reset with params := s.params, inputs := s.inputs.tail, edge := s.edge + 1 }

/-- The inputs of an edge of which the queue says nothing: no reset, no bus access (assumption 2), and a free sample of
`rx` (assumption 3). -/
def quietInputs (t : Nat) : Inputs :=
  { rx := Config.freeRx t, rst := false, sel := false, we := false, addr := 0#6, wdata := 0#32 }

/-- The inputs the coming edge samples (spec/00_scope.md R12). -/
def nextInputs (s : State) : Inputs :=
  match s.inputs with
  | [] => quietInputs s.edge
  | i :: _ => i

end Sys2Proof.Machine
end

