-- ==== Sys2Proof/Machine/Bus.lean ====
section
/-! DEFINITION. The register bus: the map of spec/20_memory.md R51, the read of R57, the register write of R58 and the
outputs of the block (spec/00_scope.md R12). -/

namespace Sys2Proof.Machine

/-- The words of the register space (spec/20_memory.md R51). -/
inductive HostReg where
  | cmd
  | status
  | cfg
  | pace
  | level
  | volume
  | seg0
  | seg1
  | seg2
  | csum
  | idle
  | id
  /-- Addresses `0x0C` to `0x1F` (spec/10_state.md R36). -/
  | reserved
  /-- Address `0x20 + 2k`. -/
  | calLevel (k : Fin 16)
  /-- Address `0x21 + 2k`. -/
  | calVol (k : Fin 16)
deriving DecidableEq, Repr

/-- The entry number of an address of the calibration table, bits 4:1. -/
def calIndex (a : BusAddr) : Fin 16 := (a.extractLsb' 1 4).toFin

/-- The word at an address, the whole map of spec/20_memory.md R51. -/
def hostReg (a : BusAddr) : HostReg :=
  if 32 ≤ a.toNat then (if a.getLsbD 0 = true then .calVol (calIndex a) else .calLevel (calIndex a))
  else match a.toNat with
    | 0 => .cmd
    | 1 => .status
    | 2 => .cfg
    | 3 => .pace
    | 4 => .level
    | 5 => .volume
    | 6 => .seg0
    | 7 => .seg1
    | 8 => .seg2
    | 9 => .csum
    | 10 => .idle
    | 11 => .id
    | _ => .reserved

/-- The content of a word (spec/20_memory.md R51, R54; spec/10_state.md R25, R31 to R38). -/
def readReg (s : State) : HostReg → Word
  | .cmd => 0#32
  | .status => statusWord s
  | .cfg => cfgWord s.cfg
  | .pace => s.cfg.minPause.setWidth 32
  | .level => s.res.level.setWidth 32
  | .volume => s.res.volume
  | .seg0 => s.res.seg[3] ++ s.res.seg[2] ++ s.res.seg[1] ++ s.res.seg[0]
  | .seg1 => s.res.seg[7] ++ s.res.seg[6] ++ s.res.seg[5] ++ s.res.seg[4]
  | .seg2 => 0#16 ++ s.res.seg[9] ++ s.res.seg[8]
  | .csum => s.res.csAct ++ 0#4 ++ s.res.csExp
  | .idle => s.idleUs.setWidth 32
  | .id => Config.idWord
  | .reserved => 0#32
  | .calLevel k => s.cfg.calLevel[k].setWidth 32
  | .calVol k => s.cfg.calVol[k].setWidth 32

/-- `Read(S, addr)` (spec/20_memory.md R57). -/
def busRead (s : State) (a : BusAddr) : Word := readReg s (hostReg a)

/-- A write of a register while idle: the words that store (spec/20_memory.md R58); every other word ignores it. -/
def HostRegs.write (c : HostRegs) (w : Word) : HostReg → HostRegs
  | .cfg => c.writeCfg w
  | .pace => c.writePace w
  | .calLevel k => c.writeCalLevel k w
  | .calVol k => c.writeCalVol k w
  | .cmd => c
  | .status => c
  | .level => c
  | .volume => c
  | .seg0 => c
  | .seg1 => c
  | .seg2 => c
  | .csum => c
  | .idle => c
  | .id => c
  | .reserved => c

/-- The register write of spec/20_memory.md R58 at an idle edge, for every address but `CMD`'s. -/
def writeReg (s : State) (r : HostReg) (w : Word) : State := { s with cfg := s.cfg.write w r }

/-- The read data the block shows during the tick that ends at the coming edge (spec/20_memory.md R57): 0 unless the access
is a read. -/
def rdata (s : State) : Word :=
  let i := nextInputs s
  if i.sel = true ∧ i.we = false then busRead s i.addr else 0#32

/-- The outputs of the block during one tick (spec/00_scope.md R12): the pins `tx` and `done` and the read data. -/
structure Outputs where
  tx : Bool
  done : Bool
  rdata : Word
deriving DecidableEq, Repr

/-- The outputs during the tick that ends at the coming edge (spec/00_scope.md R12, spec/60_exceptions.md R211). -/
def outputs (s : State) : Outputs := { tx := s.tx, done := s.done, rdata := rdata s }

end Sys2Proof.Machine
end

