-- ==== Sys2Proof/Machine/Commands.lean ====
section
/-! DEFINITION. The meanings of the five commands: what an accepted command does at its acceptance edge
(spec/43_orchestrator_and_commands.md R170 to R181). An accepted command is one written at an edge with `phase = IDLE`
(R170; the edge checks it, assumption 9). What READ, LEVEL and VOLUME do at later edges is the sequencer's, in `Wire`.
The pacing counter's own step (R177) is the edge's, in `Edge`. -/

namespace Sys2Proof.Machine

/-- NOP (spec/43_orchestrator_and_commands.md R171). -/
def execNop (s : State) : Host.Outcome State Fault Refusal := .next s

/-- READ: the rate gate (R172), the RateLimited outcome (R173) or the start of the attempt (R174). -/
def execRead (s : State) : Host.Outcome State Fault Refusal :=
  if s.idleUs.toNat < s.cfg.minPause.toNat then .next (rateLimitedExit s) else .next (startAttempt s)

/-- LEVEL: acceptance (R178); its commit is `levelCommit`. -/
def execLevel (s : State) : Host.Outcome State Fault Refusal := .next (startCalc .level s)

/-- VOLUME: acceptance (R179); its commit is `volumeCommit`. -/
def execVolume (s : State) : Host.Outcome State Fault Refusal := .next (startCalc .volume s)

/-- CLEAR (R181). -/
def execClear (s : State) : Host.Outcome State Fault Refusal :=
  .next { s with done := false, ovr := false, ill := false }

end Sys2Proof.Machine
end

