-- ==== Sys2Proof/Machine/Dispatch.lean ====
section
/-! DEFINITION. exec, one arm per command of the SLDC (spec/30_encoding.md R70). -/

namespace Sys2Proof.Machine

def exec (i : Instr) (s : State) : Host.Outcome State Fault Refusal :=
  match i with
  | .nop => Sys2Proof.Machine.execNop s
  | .read => Sys2Proof.Machine.execRead s
  | .level => Sys2Proof.Machine.execLevel s
  | .volume => Sys2Proof.Machine.execVolume s
  | .clear => Sys2Proof.Machine.execClear s

end Sys2Proof.Machine
end

