-- ==== Sys2Proof/Machine/Wire.lean ====
section
/-! DEFINITION. The phases of an attempt and of CALC, one definition per phase of spec/10_state.md R40, each the whole
effect of one edge on the sequencer (spec/40_wire_decoder.md R101 to R115, spec/43_orchestrator_and_commands.md R180).
`rx` is the sample of the edge. -/

namespace Sys2Proof.Machine

/-- PRECHECK: the idle-line check (spec/40_wire_decoder.md R101). -/
def precheckPhase (rx : Bool) (s : State) : State :=
  if rx = false then errorExit .interfaceFault s else enterPhase .charge true 0#16 s

/-- CHARGE: counting (spec/40_wire_decoder.md R102), and at the last edge the short-circuit check and the branch (R103). -/
def chargePhase (rx : Bool) (s : State) : State :=
  if s.seq.cnt.toNat = s.params.tCharge - 1 then
    if rx = false then errorExit .shortCircuit s
    else if s.cfg.addr = 0#4 then startListening s
    else enterPhase .addrLow false 0#16 { s with seq.pulse := s.cfg.addr }
  else countTick s

/-- ADDR_LOW (spec/40_wire_decoder.md R104). -/
def addrLowPhase (s : State) : State :=
  if s.seq.cnt.toNat = s.params.tAddrLow - 1 then enterPhase .addrHigh true 0#16 s else countTick s

/-- ADDR_HIGH (spec/40_wire_decoder.md R105). -/
def addrHighPhase (s : State) : State :=
  if s.seq.cnt.toNat = s.params.tAddrHigh - 1 then
    if s.seq.pulse = 1#4 then startListening { s with seq.pulse := 0#4 }
    else enterPhase .addrLow false 0#16 { s with seq.pulse := s.seq.pulse - 1#4 }
  else countTick s

/-- The limit of the present wait (spec/40_wire_decoder.md R110, R111). -/
def waitLimit (s : State) : Nat := if s.seq.first = true then s.params.tFirst else s.params.tBit

/-- WAIT_HIGH: `rx` is tested before the deadline (spec/40_wire_decoder.md R110, R111). -/
def waitHighPhase (rx : Bool) (s : State) : State :=
  if rx = true then { s with seq.first := false, seq.cnt := 1#16, seq.phase := .measHigh }
  else if s.seq.cnt.toNat = waitLimit s then
    (if s.seq.first = true then errorExit .noResponse s else errorExit .timeout s)
  else countTick s

/-- MEAS_HIGH: the bit decision when the pulse ends (spec/40_wire_decoder.md R112), the count and the overlong pulse while
it goes on (R113). -/
def measHighPhase (rx : Bool) (s : State) : State :=
  if rx = false then shiftBit (decide (Config.tThresh < s.seq.cnt.toNat)) s
  else if s.seq.cnt.toNat = s.params.tBit then errorExit .timeout s
  else countTick s

/-- The commit of a READ whose twelve bytes were collected (spec/40_wire_decoder.md R116 to R118). -/
def readCommit (s : State) : State :=
  if checksumMatches s.seq.pkt = true then successCommit s else errorExit .checksumMismatch s

/-- CALC: counting, and at its last edge the commit according to `op` (spec/43_orchestrator_and_commands.md R180). -/
def calcPhase (s : State) : Host.Outcome State Fault Refusal :=
  if s.seq.cnt.toNat = s.params.tCalc - 1 then
    match s.seq.op with
    | .read => .next (readCommit s)
    | .level => .next (levelCommit s)
    | .volume => .next (volumeCommit s)
    | .none => .fault .calcWithoutCommand
  else .next (countTick s)

/-- The sequencer rule of the present phase (spec/43_orchestrator_and_commands.md R184, spec/40_wire_decoder.md R122). -/
def sequencer (rx : Bool) (s : State) : Host.Outcome State Fault Refusal :=
  match s.seq.phase with
  | .idle => .next s
  | .precheck => .next (precheckPhase rx s)
  | .charge => .next (chargePhase rx s)
  | .addrLow => .next (addrLowPhase s)
  | .addrHigh => .next (addrHighPhase s)
  | .waitHigh => .next (waitHighPhase rx s)
  | .measHigh => .next (measHighPhase rx s)
  | .calc => calcPhase s

end Sys2Proof.Machine
end

