-- ==== Sys2Proof/Machine/Edge.lean ====
section
/-! DEFINITION. One clock edge, the function `Step(S, inputs)` of spec/43_orchestrator_and_commands.md R184, and the host's
access that makes an edge accept a command (R170). -/

namespace Sys2Proof.Machine

/-- A word written to `CMD` at an idle edge: the command it stands for, or for a reserved code `ILL <- 1` and nothing else
(spec/30_encoding.md R70, R71). -/
def command (w : Word) (s : State) : Host.Outcome State Fault Refusal :=
  match decode w with
  | .ok i => exec i s
  | .error _ => .next { s with ill := true }

/-- A bus write at an idle edge (spec/20_memory.md R58). -/
def idleWrite (a : BusAddr) (w : Word) (s : State) : Host.Outcome State Fault Refusal :=
  match hostReg a with
  | .cmd => command w s
  | r => .next (writeReg s r w)

/-- An edge with `phase = IDLE` and no reset (R184): the write or command, on the state before the edge, and then what
every edge does. -/
def idleEdge (i : Inputs) (s : State) : Host.Outcome State Fault Refusal :=
  mapNext advance (if i.sel = true ∧ i.we = true then idleWrite i.addr i.wdata s else .next s)

/-- A bus write at a busy edge is dropped and sets `OVR` (spec/20_memory.md R58). -/
def droppedWrite (i : Inputs) (s : State) : State :=
  if i.sel = true ∧ i.we = true then { s with ovr := true } else s

/-- An edge with `phase != IDLE` and no reset (R184): what every edge does, and then the sequencer rule, whose commit
overrides the pacing counter. -/
def busyEdge (i : Inputs) (s : State) : Host.Outcome State Fault Refusal :=
  sequencer i.rx (advance (droppedWrite i s))

/-- `Step(S, inputs)` (spec/43_orchestrator_and_commands.md R184). -/
def clockEdge (i : Inputs) (s : State) : Host.Outcome State Fault Refusal :=
  if i.rst = true then .next (resetEdge s)
  else if s.seq.phase = .idle then idleEdge i s
  else busyEdge i s

/-- One step of the machine: an SLDC (spec/00_scope.md R9) takes the inputs of the coming edge. -/
def edgeStep (s : State) : Host.Outcome State Fault Refusal :=
  if s.params.legal = true then clockEdge (nextInputs s) s else .refused .illegalParameters

/-- The host's access that writes `w` to `CMD` at an edge whose `rx` sample is `rx` (spec/43_orchestrator_and_commands.md
R170). -/
def commandInput (rx : Bool) (w : Word) : Inputs :=
  { rx := rx, rst := false, sel := true, we := true, addr := 0#6, wdata := w }

/-- The state in which the coming edge accepts the command word `w` (assumption 14): no command in flight, and the host
writing `w` to `CMD` at that edge. The sample of `rx` of a queued edge stays; an idle edge does not read it
(spec/40_wire_decoder.md R107). -/
def withCommandWord (s : State) (w : Word) : State :=
  { s with
    seq.phase := .idle
    inputs := commandInput (s.inputs.head?.elim false Inputs.rx) w :: s.inputs.tail }

end Sys2Proof.Machine
end

