-- ==== Sys2Proof/Machine/Step.lean ====
section
/-! DEFINITION. The step of the machine and the placing of a command where the next step accepts it. -/

namespace Sys2Proof.Machine

/-- One step: one clock edge (spec/00_scope.md R12). -/
def step (s : State) : Host.Outcome State Fault Refusal := edgeStep s

/-- The state whose next step accepts the command whose opcode-table bits are `w` (assumption 14). -/
def State.withFetchWord (s : State) (nbits w : Nat) : State := withCommandWord s (tableWord nbits w)

end Sys2Proof.Machine
end

