-- ==== Sys2Proof/Safety.lean ====
section
/-! DEFINITION. The terms claims about the SLDC are stated in: the inputs of the coming edges, runs and what is observed
of them (spec/30_encoding.md R83), the commands an edge accepts (spec/43_orchestrator_and_commands.md R170), the
samples of a packet waveform (spec/30_encoding.md R76), and the invariants of every reachable state
(spec/10_state.md R28, R40, R43). -/

namespace Sys2Proof.Machine

/-! ### The inputs of the coming edges -/

/-- The inputs of the `k`-th coming edge, `k = 0` the next one: the queue's entry, and past its end the inputs of an edge
of which the queue says nothing. -/
def inputAt (s : State) (k : Nat) : Inputs := (s.inputs[k]?).getD (quietInputs (s.edge + k))

/-- The sample of `rx` at the `k`-th coming edge. -/
def rxAt (s : State) (k : Nat) : Bool := (inputAt s k).rx

/-- The access is a bus write (spec/20_memory.md R58). -/
def Inputs.isWrite (i : Inputs) : Bool := i.sel && i.we

/-- No reset at the next `n` edges. -/
abbrev ResetFree (s : State) (n : Nat) : Prop := ∀ k < n, (inputAt s k).rst = false

/-- Whether one of the edges `from`, ..., `from + n - 1` carries a bus write. -/
def writesAmong (s : State) (start n : Nat) : Bool := (List.range n).any fun k => (inputAt s (start + k)).isWrite

/-! ### Runs -/

/-- `n` steps of the machine, stopping at the first fault or refusal. -/
def run : Nat → State → Host.Outcome State Fault Refusal
  | 0, s => .next s
  | n + 1, s =>
    match step s with
    | .next t => run n t
    | .fault r => .fault r
    | .refused r => .refused r

/-- What is observed of a run over `n` ticks (spec/30_encoding.md R83): the outputs of the block during each. -/
def observe : Nat → State → List Outputs
  | 0, _ => []
  | n + 1, s =>
    outputs s ::
      match step s with
      | .next t => observe n t
      | .fault _ => []
      | .refused _ => []

/-! ### Commands at an edge -/

/-- The command the coming edge accepts, if it accepts one (spec/43_orchestrator_and_commands.md R170): no reset, the block
idle, a write to `CMD`, and a code that is not reserved. -/
def acceptedCommand (s : State) : Option Instr :=
  let i := nextInputs s
  if i.rst = false ∧ s.seq.phase = .idle ∧ i.isWrite = true ∧ i.addr = 0#6 then
    match decode i.wdata with
    | .ok c => some c
    | .error _ => none
  else none

/-- The coming edge writes a reserved code to `CMD` of an idle block (spec/30_encoding.md R71). -/
abbrev WritesReservedCode (s : State) : Prop :=
  (nextInputs s).rst = false ∧ s.seq.phase = .idle ∧ (nextInputs s).isWrite = true ∧ (nextInputs s).addr = 0#6
    ∧ 5 ≤ (opcField (nextInputs s).wdata).toNat

/-- The coming edge accepts a READ that passes the rate gate (spec/43_orchestrator_and_commands.md R172). -/
abbrev StartsAttempt (s : State) : Prop :=
  s.params.legal = true ∧ acceptedCommand s = some .read ∧ s.cfg.minPause.toNat ≤ s.idleUs.toNat

/-! ### The wire -/

/-- The number of ticks of the address pulses of the next READ (spec/30_encoding.md R77). -/
def addressTicks (s : State) : Nat := s.cfg.addr.toNat * (s.params.tAddrLow + s.params.tAddrHigh)

/-- The number of steps from the acceptance of a READ to the state in which listening has started
(spec/40_wire_decoder.md R124: the edges `a` to `l`). -/
def stepsToListening (s : State) : Nat := 2 + s.params.tCharge + addressTicks s

/-- The line passes both checks of a READ accepted at the coming edge: `rx = 1` at the precheck edge and at the last edge
of the charge (spec/40_wire_decoder.md R101, R103, R124). -/
abbrev LinePassesChecks (s : State) : Prop := rxAt s 1 = true ∧ rxAt s (1 + s.params.tCharge) = true

/-- One received pulse: `low` samples of 0 before it, `high` samples of 1 (spec/30_encoding.md R76). -/
structure Pulse where
  low : Nat
  high : Nat
deriving DecidableEq, Repr

/-- The bit a pulse stands for (spec/30_encoding.md R76). -/
def Pulse.bit (p : Pulse) : Bool := decide (Config.tThresh < p.high)

/-- The `rx` samples of a train of pulses, with the one sample of 0 that ends the last pulse. -/
def pulseSamples (ps : List Pulse) : List Bool :=
  ps.flatMap (fun p => List.replicate p.low false ++ List.replicate p.high true) ++ [false]

/-- A train of 96 pulses that the block accepts from the start of listening (spec/40_wire_decoder.md R110, R113, R114): the
first wait is at most `T_FIRST` samples of 0, every later one 1 to `T_BIT + 1`, every pulse 1 to `T_BIT` samples. -/
abbrev AcceptablePulses (p : Params) (ps : List Pulse) : Prop :=
  ps.length = 96 ∧ (∀ q ∈ ps, 1 ≤ q.high ∧ q.high ≤ p.tBit) ∧ (∀ q ∈ ps.head?, q.low ≤ p.tFirst)
    ∧ ∀ q ∈ ps.tail, 1 ≤ q.low ∧ q.low ≤ p.tBit + 1

/-- The packet a train of pulses carries: pulse number `n` is bit `7 - (n mod 8)` of byte `n / 8`
(spec/20_memory.md R52). -/
abbrev Carries (ps : List Pulse) (pkt : Vector Byte 12) : Prop :=
  ∀ k : Fin 12, ∀ j : Fin 8, pkt[k].getLsbD (7 - j.val) = (ps.getD (8 * k.val + j.val) ⟨0, 0⟩).bit

/-! ### One busy edge -/

/-- No reset at the coming edge, the parameters legal, and the block in phase `p`. -/
abbrev WorkingIn (p : Phase) (s : State) : Prop :=
  s.params.legal = true ∧ (nextInputs s).rst = false ∧ s.seq.phase = p

/-- The state after a busy edge but for what the sequencer rule of the phase writes: a dropped write has set `OVR`
(spec/20_memory.md R58), the pacing counter has counted (spec/43_orchestrator_and_commands.md R177), the edge is over. -/
def edgeBase (s : State) : State :=
  { s with
    ovr := s.ovr || (nextInputs s).isWrite
    idleUs := pacingNext s.idleUs
    inputs := s.inputs.tail
    edge := s.edge + 1 }

/-- The state after a busy edge that raises an error with outcome code `code` and leaves the checksum pair `exp`, `act` with
flag `valid` (spec/60_exceptions.md R206, word for word). -/
def failedAttempt (s : State) (code : BitVec 3) (exp : BitVec 12) (act : BitVec 16) (valid : Bool) : State :=
  { edgeBase s with
    tx := false
    idleUs := 0#24
    done := true
    seq := { s.seq with phase := .idle }
    res :=
      { seg := Vector.replicate 10 0#8, segValid := false, level := 0#16, levelValid := false, volume := 0#32,
        volValid := false, csExp := exp, csAct := act, csv := valid, err := code } }

/-! ### Invariants -/

/-- The level of `tx` in each phase, the table of spec/10_state.md R40 (and R43 (a), (b), (c)). -/
abbrev TxMatchesPhase (s : State) : Prop :=
  (s.seq.phase = .idle → s.tx = false) ∧ (s.seq.phase = .precheck → s.tx = false)
    ∧ (s.seq.phase = .charge → s.tx = true) ∧ (s.seq.phase = .addrLow → s.tx = false)
    ∧ (s.seq.phase = .addrHigh → s.tx = true) ∧ (s.seq.phase = .waitHigh → s.tx = s.params.txListen)
    ∧ (s.seq.phase = .measHigh → s.tx = s.params.txListen) ∧ (s.seq.phase = .calc → s.tx = false)

/-- The results agree with their flags and ranges (spec/10_state.md R23, R24, R28, R30, R43 (d), (e), (f)). -/
abbrev ResultsConsistent (r : Results) : Prop :=
  (r.levelValid = true → r.segValid = true) ∧ (r.volValid = true → r.levelValid = true)
    ∧ (r.segValid = false → r.seg = Vector.replicate 10 0#8) ∧ (r.levelValid = false → r.level = 0#16)
    ∧ (r.volValid = false → r.volume = 0#32) ∧ r.level.toNat ≤ 40960
    ∧ -16777215 ≤ r.volume.toInt ∧ r.volume.toInt ≤ 16777215
    ∧ (r.csv = false → r.csExp = 0#12 ∧ r.csAct = 0#16) ∧ r.csAct.toNat ≤ 2550 ∧ r.err ≠ 7#3

/-- The counters stay within the limits of their phases, so that none wraps (spec/40_wire_decoder.md R105, R122, R123). -/
abbrev CountersInRange (s : State) : Prop :=
  (s.seq.phase = .charge → s.seq.cnt.toNat < s.params.tCharge)
    ∧ (s.seq.phase = .addrLow → s.seq.cnt.toNat < s.params.tAddrLow)
    ∧ (s.seq.phase = .addrHigh → s.seq.cnt.toNat < s.params.tAddrHigh)
    ∧ (s.seq.phase = .waitHigh → s.seq.cnt.toNat ≤ waitLimit s)
    ∧ (s.seq.phase = .measHigh → 1 ≤ s.seq.cnt.toNat ∧ s.seq.cnt.toNat ≤ s.params.tBit)
    ∧ (s.seq.phase = .calc → s.seq.cnt.toNat < s.params.tCalc)
    ∧ (s.seq.phase = .addrLow ∨ s.seq.phase = .addrHigh →
        1 ≤ s.seq.pulse.toNat ∧ s.seq.pulse.toNat ≤ s.cfg.addr.toNat)

/-- The command in flight is one that uses the phase (spec/40_wire_decoder.md R100, spec/43_orchestrator_and_commands.md
R180). -/
abbrev CommandInFlight (s : State) : Prop :=
  (s.seq.phase ≠ .idle → s.seq.op ≠ .none) ∧ (s.seq.phase ≠ .idle → s.seq.phase ≠ .calc → s.seq.op = .read)

/-- What holds of every state a run reaches. -/
abbrev Inv (s : State) : Prop :=
  TxMatchesPhase s ∧ ResultsConsistent s.res ∧ CountersInRange s ∧ CommandInFlight s

end Sys2Proof.Machine
end

