-- ==== Sys2Proof/Certificates/Slice0/Obligations.lean ====
section
/-! DEFINITION. The statements about the SLDC that the provers settle, each from the rules of spec/ its docstring names. An
edge is one step; `run n s` is `n` steps from `s`; `inputAt s k` are the inputs of the `k`-th coming edge, which stand in the
model's own queue (assumption 1). The fields `inputs`, `edge` and `params` are the model's own: where a statement names
them, what it says of them is the model's choice (assumptions 1, 17 and 4) and no rule of the spec. -/

open Sys2Proof Sys2Proof.Machine

/-! ### The command word (spec/30_encoding.md) -/

/-- Words written out from the table of spec/30_encoding.md R70 decode to their commands, the ignored bits 31:4 being
anything, and the first and last reserved code are rejected by name (R71). -/
def Obligations.CommandWordsDecode : Prop :=
  decode 0x00000000#32 = .ok .nop ∧ decode 0xFFFFFFF1#32 = .ok .read ∧ decode 0x00000002#32 = .ok .level
    ∧ decode 0x12345673#32 = .ok .volume ∧ decode 0x00000004#32 = .ok .clear
    ∧ decode 0x00000005#32 = .error (.reservedCode 5#4) ∧ decode 0xFFFFFFFF#32 = .error (.reservedCode 15#4)

/-- A word decodes to a command exactly when its bits 3:0 are the command's code, whatever its bits 31:4 are, and the word
software writes for a command decodes to it (spec/30_encoding.md R70). -/
def Obligations.DecodingReadsOnlyTheCode : Prop :=
  (∀ (w : Word) (i : Instr), decode w = .ok i ↔ w.extractLsb' 0 4 = opcOf i) ∧
    (∀ i : Instr, decode (encode i) = .ok i) ∧
    ∀ w : Word, 5 ≤ (w.extractLsb' 0 4).toNat → decode w = .error (.reservedCode (w.extractLsb' 0 4))

/-! ### One edge -/

/-- A step runs the decoded command: at an edge without reset at which the block is idle and the host writes a word to
`CMD` that decodes to `i`, the step is `exec i`, and then the pacing counter counts and the edge is over
(spec/43_orchestrator_and_commands.md R170, R177, R184). -/
def Obligations.StepRunsTheDecodedCommand : Prop :=
  ∀ (s : State) (i : Instr), s.params.legal = true → (nextInputs s).rst = false → s.seq.phase = .idle →
    (nextInputs s).sel = true → (nextInputs s).we = true → (nextInputs s).addr = 0#6 →
    decode (nextInputs s).wdata = .ok i →
    step s = mapNext
      (fun t => { t with idleUs := pacingNext t.idleUs, inputs := t.inputs.tail, edge := t.edge + 1 }) (exec i s)

/-- Every step of a machine whose parameter set is outside the legal ranges is refused, whatever the state and the inputs.
That each STEP is refused is the model's reading (assumption 5) of spec/00_scope.md R9, which gives the ranges their force
and says that a model refuses to instantiate such a block. -/
def Obligations.IllegalParametersAreRefused : Prop :=
  ∀ s : State,
    ¬ (1500 ≤ s.params.tCharge ∧ s.params.tCharge ≤ 3000 ∧ 1 ≤ s.params.tAddrLow ∧ s.params.tAddrLow ≤ 65535
      ∧ 1 ≤ s.params.tAddrHigh ∧ s.params.tAddrHigh ≤ 65535 ∧ 14000 ≤ s.params.tFirst ∧ s.params.tFirst ≤ 20000
      ∧ 27 ≤ s.params.tBit ∧ s.params.tBit ≤ 65535 ∧ 1 ≤ s.params.tCalc ∧ s.params.tCalc ≤ 65535
      ∧ 1 ≤ s.params.noiseFloor ∧ s.params.noiseFloor ≤ 255 ∧ 1 ≤ s.params.baseline ∧ s.params.baseline ≤ 255
      ∧ 1 ≤ s.params.dampQ8 ∧ s.params.dampQ8 ≤ 255 ∧ 4096 ≤ s.params.capTop ∧ s.params.capTop ≤ 8191) →
    step s = .refused .illegalParameters

/-- An edge with `rst = 1` leaves the reset state whatever the state, the phase and the bus inputs are; a bus read at that
edge still shows the state before it; and the words and pins of the reset state are as stated
(spec/70_reset_and_hazards.md R230). That the parameters stay, and that the queue of inputs and the edge number move on, is
the model's choice for its own three fields (assumptions 4, 1 and 17); R230 speaks of the elements of the block alone. -/
def Obligations.ResetEdgeWinsOverEverything : Prop :=
  (∀ s : State, s.params.legal = true → (nextInputs s).rst = true →
    step s = .next { State.reset with params := s.params, inputs := s.inputs.tail, edge := s.edge + 1 }) ∧
  (∀ s : State, (nextInputs s).sel = true → (nextInputs s).we = false →
    rdata s = busRead s (nextInputs s).addr) ∧
  State.reset.tx = false ∧ State.reset.done = false ∧ State.reset.seq.phase = .idle ∧
  (∀ a : BusAddr, busRead State.reset a =
    if a = 0x02#6 then 0x000000A0#32 else if a = 0x03#6 then 0x000F4240#32
    else if a = 0x0A#6 then 0x00FFFFFF#32 else if a = 0x0B#6 then 0x534C4431#32 else 0#32)

/-! ### The five commands at their acceptance edge (spec/43_orchestrator_and_commands.md) -/

/-- NOP does nothing: `exec` answers the state itself, at the edge only the pacing counter counts, and while busy it is a
dropped write that sets `OVR` (R171). -/
def Obligations.NopDoesNothing : Prop :=
  (∀ s : State, s.seq.phase = .idle → exec .nop s = .next s) ∧
  (∀ s : State, s.params.legal = true → acceptedCommand s = some .nop →
    step s = .next { s with idleUs := pacingNext s.idleUs, inputs := s.inputs.tail, edge := s.edge + 1 }) ∧
  (∀ s t : State, s.params.legal = true → (nextInputs s).rst = false → s.seq.phase ≠ .idle →
    (nextInputs s).isWrite = true → (nextInputs s).addr = 0#6 → decode (nextInputs s).wdata = .ok .nop →
    step s = .next t → t.ovr = true)

/-- READ of an idle block whose pacing counter has reached `MIN_PAUSE` starts the attempt: `DONE` 0, phase PRECHECK, `op`
READ, and nothing else changes (R172, R174). -/
def Obligations.ReadStartsAnAttempt : Prop :=
  ∀ s : State, s.seq.phase = .idle → s.cfg.minPause.toNat ≤ s.idleUs.toNat →
    exec .read s = .next { s with done := false, seq := { s.seq with phase := .precheck, op := .read } }

/-- READ of an idle block whose pacing counter is below `MIN_PAUSE` is RateLimited: it commits at the acceptance edge, all
results and flags cleared, `ERR` 6, `DONE` 1; `tx`, the phase and the pacing counter are as any other edge leaves them
(R172, R173, spec/60_exceptions.md R207). -/
def Obligations.ReadTooSoonIsRateLimited : Prop :=
  (∀ s : State, s.seq.phase = .idle → s.idleUs.toNat < s.cfg.minPause.toNat →
    exec .read s = .next { s with
      done := true
      res :=
        { seg := Vector.replicate 10 0#8, segValid := false, level := 0#16, levelValid := false, volume := 0#32,
          volValid := false, csExp := 0#12, csAct := 0#16, csv := false, err := 6#3 } }) ∧
  (∀ s t : State, s.params.legal = true → acceptedCommand s = some .read → s.idleUs.toNat < s.cfg.minPause.toNat →
    step s = .next t →
    t.tx = s.tx ∧ t.seq = s.seq ∧ t.idleUs.toNat = min (s.idleUs.toNat + 1) 16777215)

/-- LEVEL of an idle block is accepted: `DONE` 0, phase CALC with `cnt` 0 and `op` LEVEL, and nothing else changes (R178). -/
def Obligations.LevelIsAccepted : Prop :=
  ∀ s : State, s.seq.phase = .idle →
    exec .level s = .next { s with done := false, seq := { s.seq with phase := .calc, cnt := 0#16, op := .level } }

/-- VOLUME of an idle block is accepted: `DONE` 0, phase CALC with `cnt` 0 and `op` VOLUME, and nothing else changes (R179). -/
def Obligations.VolumeIsAccepted : Prop :=
  ∀ s : State, s.seq.phase = .idle →
    exec .volume s = .next { s with done := false, seq := { s.seq with phase := .calc, cnt := 0#16, op := .volume } }

/-- CLEAR of an idle block writes 0 to `DONE`, `OVR` and `ILL` and nothing else; while busy it is dropped and sets `OVR`
(R181). -/
def Obligations.ClearClearsThreeFlags : Prop :=
  (∀ s : State, s.seq.phase = .idle → exec .clear s = .next { s with done := false, ovr := false, ill := false }) ∧
  (∀ s t : State, s.params.legal = true → (nextInputs s).rst = false → s.seq.phase ≠ .idle →
    (nextInputs s).isWrite = true → (nextInputs s).addr = 0#6 → decode (nextInputs s).wdata = .ok .clear →
    step s = .next t → t.ovr = true ∧ t.ill = s.ill)

/-- A reserved code written to `CMD` of an idle block sets `ILL` and does nothing else: only the pacing counter counts
(spec/30_encoding.md R71). -/
def Obligations.ReservedCodeSetsOnlyIll : Prop :=
  ∀ s : State, s.params.legal = true → WritesReservedCode s →
    step s = .next
      { s with ill := true, idleUs := pacingNext s.idleUs, inputs := s.inputs.tail, edge := s.edge + 1 }

/-- What the acceptance of a command leaves unchanged on the bus: for NOP, LEVEL, VOLUME, CLEAR and a READ that passes the
gate every word but `STATUS`; for a RateLimited READ every word but `STATUS`, `LEVEL`, `VOLUME`, `SEG0..2` and `CSUM`; and
for each of them the host's registers, the pacing counter and `tx` (R171 to R174, R178, R179, R181). -/
def Obligations.AcceptanceFrameOnTheBus : Prop :=
  ∀ (i : Instr) (s t : State), s.seq.phase = .idle → exec i s = .next t →
    (∀ a : BusAddr, a ≠ 0x01#6 →
      (i = .read → s.idleUs.toNat < s.cfg.minPause.toNat →
        a ≠ 0x04#6 ∧ a ≠ 0x05#6 ∧ a ≠ 0x06#6 ∧ a ≠ 0x07#6 ∧ a ≠ 0x08#6 ∧ a ≠ 0x09#6) →
      busRead t a = busRead s a) ∧
    t.cfg = s.cfg ∧ t.idleUs = s.idleUs ∧ t.tx = s.tx

/-! ### The register bus (spec/20_memory.md) -/

/-- The map: what a read of each word shows (R51, R54; spec/10_state.md R25, R31 to R38). -/
def Obligations.BusWordsShowTheRegisters : Prop :=
  ∀ s : State,
    busRead s 0x00#6 = 0#32
    ∧ (busRead s 0x01#6 = 0#21 ++ s.res.err ++ BitVec.ofBool s.res.csv ++ BitVec.ofBool s.ill ++ BitVec.ofBool s.ovr
        ++ BitVec.ofBool s.res.volValid ++ BitVec.ofBool s.res.levelValid ++ BitVec.ofBool s.res.segValid
        ++ BitVec.ofBool s.done ++ BitVec.ofBool (decide (s.seq.phase ≠ .idle)))
    ∧ (busRead s 0x02#6).toNat =
        s.cfg.addr.toNat + 16 * s.cfg.segcnt.val + 256 * s.cfg.npoints.val + 65536 * s.cfg.invert.toNat
    ∧ (busRead s 0x03#6).toNat = s.cfg.minPause.toNat
    ∧ (busRead s 0x04#6).toNat = s.res.level.toNat
    ∧ busRead s 0x05#6 = s.res.volume
    ∧ (∀ i : Fin 10, ((busRead s (BitVec.ofNat 6 (6 + i.val / 4))).extractLsb' (8 * (i.val % 4)) 8) = s.res.seg[i])
    ∧ (busRead s 0x08#6).extractLsb' 16 16 = 0#16
    ∧ (busRead s 0x09#6).toNat = s.res.csExp.toNat + 65536 * s.res.csAct.toNat
    ∧ (busRead s 0x0A#6).toNat = s.idleUs.toNat
    ∧ busRead s 0x0B#6 = 0x534C4431#32
    ∧ (∀ a : BusAddr, 0x0C ≤ a.toNat → a.toNat ≤ 0x1F → busRead s a = 0#32)
    ∧ ∀ k : Fin 16, (busRead s (BitVec.ofNat 6 (0x20 + 2 * k.val))).toNat = s.cfg.calLevel[k].toNat
        ∧ (busRead s (BitVec.ofNat 6 (0x21 + 2 * k.val))).toNat = s.cfg.calVol[k].toNat

/-- A write of a register of an idle block: `CFG`, `PACE` and the calibration words store the legal part of the value, every
other address but `CMD` stores nothing, and no other word changes but `IDLE`, which counts (R58; spec/10_state.md R32,
R33, R36, R38). -/
def Obligations.RegisterWriteReadsBack : Prop :=
  ∀ s : State, s.params.legal = true → (nextInputs s).rst = false → s.seq.phase = .idle →
    (nextInputs s).sel = true → (nextInputs s).we = true → (nextInputs s).addr ≠ 0#6 →
    ∃ t, step s = .next t
      ∧ ((nextInputs s).addr = 0x02#6 →
          t.cfg.addr = (nextInputs s).wdata.extractLsb' 0 4
          ∧ t.cfg.segcnt.val = min ((nextInputs s).wdata.extractLsb' 4 4).toNat 10
          ∧ t.cfg.npoints.val = min ((nextInputs s).wdata.extractLsb' 8 5).toNat 16
          ∧ t.cfg.invert = (nextInputs s).wdata.getLsbD 16)
      ∧ ((nextInputs s).addr = 0x03#6 → busRead t 0x03#6 = (nextInputs s).wdata &&& 0x00FFFFFF#32)
      ∧ (∀ k : Fin 16, (nextInputs s).addr = BitVec.ofNat 6 (0x20 + 2 * k.val) →
          busRead t (nextInputs s).addr = (nextInputs s).wdata &&& 0x0000FFFF#32)
      ∧ (∀ k : Fin 16, (nextInputs s).addr = BitVec.ofNat 6 (0x21 + 2 * k.val) →
          busRead t (nextInputs s).addr = (nextInputs s).wdata &&& 0x00FFFFFF#32)
      ∧ (∀ a : BusAddr, a ≠ 0x0A#6 →
          (a = (nextInputs s).addr → a ≠ 0x02#6 ∧ a ≠ 0x03#6 ∧ a.toNat < 0x20) → busRead t a = busRead s a)
      ∧ t.tx = s.tx ∧ t.done = s.done ∧ t.ovr = s.ovr ∧ t.ill = s.ill ∧ t.res = s.res ∧ t.seq = s.seq
      ∧ t.idleUs = pacingNext s.idleUs

/-- A bus write at a busy edge changes nothing but `OVR`: the step is that of the same edge without the access, with `OVR`
set (R58). -/
def Obligations.WriteWhileBusyIsDropped : Prop :=
  ∀ (s : State) (i : Inputs) (rest : List Inputs), s.seq.phase ≠ .idle → i.rst = false → i.sel = true → i.we = true →
    step { s with inputs := i :: rest } =
      mapNext (fun t => { t with ovr := true }) (step { s with inputs := { i with sel := false } :: rest })

/-- A bus read changes no state, busy or not, at any address, and shows the word of the state before the edge; without a
read the read data is 0 (R57). -/
def Obligations.BusReadHasNoEffect : Prop :=
  (∀ (s : State) (i : Inputs) (rest : List Inputs), i.we = false →
    step { s with inputs := i :: rest } = step { s with inputs := { i with sel := false } :: rest }) ∧
  (∀ s : State, (nextInputs s).sel = true → (nextInputs s).we = false → rdata s = busRead s (nextInputs s).addr) ∧
  (∀ s : State, (nextInputs s).sel = false ∨ (nextInputs s).we = true → rdata s = 0#32)

/-! ### The edges of an attempt (spec/40_wire_decoder.md) and its exits (spec/60_exceptions.md) -/

/-- PRECHECK with the idle line high: `tx` 1, `cnt` 0, phase CHARGE (R101). -/
def Obligations.PrecheckStartsTheCharge : Prop :=
  ∀ s : State, WorkingIn .precheck s → rxAt s 0 = true →
    step s = .next { edgeBase s with tx := true, seq := { s.seq with cnt := 0#16, phase := .charge } }

/-- CHARGE counts and ignores `rx` until its last edge (R102); there, with `rx = 1`, it starts the address pulses, or
listening when the address is 0 (R103, R106). -/
def Obligations.ChargeCountsThenBranches : Prop :=
  ∀ s : State, WorkingIn .charge s →
    (s.seq.cnt.toNat ≠ s.params.tCharge - 1 → step s = .next { edgeBase s with seq.cnt := s.seq.cnt + 1#16 }) ∧
    (s.seq.cnt.toNat = s.params.tCharge - 1 → rxAt s 0 = true → s.cfg.addr ≠ 0#4 →
      step s = .next { edgeBase s with
        tx := false, seq := { s.seq with pulse := s.cfg.addr, cnt := 0#16, phase := .addrLow } }) ∧
    (s.seq.cnt.toNat = s.params.tCharge - 1 → rxAt s 0 = true → s.cfg.addr = 0#4 →
      step s = .next { edgeBase s with
        tx := s.params.txListen
        seq := { s.seq with
          phase := .waitHigh, cnt := 0#16, first := true, byten := 0, bitn := 0#3, sh := 0#8 } })

/-- ADDR_LOW and ADDR_HIGH: each counts to its limit whatever `rx` is; then the high part begins, the next pulse begins, or
after the last pulse listening begins (R104, R105, R106). -/
def Obligations.AddressPulseEdges : Prop :=
  ∀ s : State,
    (WorkingIn .addrLow s →
      (s.seq.cnt.toNat ≠ s.params.tAddrLow - 1 → step s = .next { edgeBase s with seq.cnt := s.seq.cnt + 1#16 }) ∧
      (s.seq.cnt.toNat = s.params.tAddrLow - 1 →
        step s = .next { edgeBase s with tx := true, seq := { s.seq with cnt := 0#16, phase := .addrHigh } })) ∧
    (WorkingIn .addrHigh s →
      (s.seq.cnt.toNat ≠ s.params.tAddrHigh - 1 → step s = .next { edgeBase s with seq.cnt := s.seq.cnt + 1#16 }) ∧
      (s.seq.cnt.toNat = s.params.tAddrHigh - 1 → s.seq.pulse ≠ 1#4 →
        step s = .next { edgeBase s with
          tx := false, seq := { s.seq with pulse := s.seq.pulse - 1#4, cnt := 0#16, phase := .addrLow } }) ∧
      (s.seq.cnt.toNat = s.params.tAddrHigh - 1 → s.seq.pulse = 1#4 →
        step s = .next { edgeBase s with
          tx := s.params.txListen
          seq := { s.seq with
            pulse := 0#4, phase := .waitHigh, cnt := 0#16, first := true, byten := 0, bitn := 0#3, sh := 0#8 } }))

/-- WAIT_HIGH: a sample of 1 starts a pulse, even at the deadline edge; a sample of 0 before the deadline counts (R110,
R111). -/
def Obligations.WaitingEdges : Prop :=
  ∀ s : State, WorkingIn .waitHigh s →
    (rxAt s 0 = true →
      step s = .next { edgeBase s with seq := { s.seq with first := false, cnt := 1#16, phase := .measHigh } }) ∧
    (rxAt s 0 = false →
      s.seq.cnt.toNat ≠ (if s.seq.first = true then s.params.tFirst else s.params.tBit) →
      step s = .next { edgeBase s with seq.cnt := s.seq.cnt + 1#16 })

/-- MEAS_HIGH: a sample of 1 before the limit counts (R113); a sample of 0, even at the limit edge, decides the bit, 1 when
the pulse was longer than 26 samples (R112), and shifts it into the byte, most significant bit first; the eighth bit
stores the byte, and the 96th ends the packet with `tx` 0 and phase CALC (R114, R115). -/
def Obligations.MeasuringEdges : Prop :=
  ∀ s : State, WorkingIn .measHigh s →
    (rxAt s 0 = true → s.seq.cnt.toNat ≠ s.params.tBit →
      step s = .next { edgeBase s with seq.cnt := s.seq.cnt + 1#16 }) ∧
    (rxAt s 0 = false →
      ∀ v : Byte, v.toNat = (2 * s.seq.sh.toNat + (decide (26 < s.seq.cnt.toNat)).toNat) % 256 →
        (s.seq.bitn ≠ 7#3 →
          step s = .next { edgeBase s with
            seq := { s.seq with sh := v, bitn := s.seq.bitn + 1#3, cnt := 0#16, phase := .waitHigh } }) ∧
        (s.seq.bitn = 7#3 → s.seq.byten ≠ 11 →
          step s = .next { edgeBase s with
            seq := { s.seq with
              sh := v, bitn := 0#3, byten := s.seq.byten + 1, cnt := 0#16, phase := .waitHigh
              pkt := s.seq.pkt.set s.seq.byten.val v s.seq.byten.isLt } }) ∧
        (s.seq.bitn = 7#3 → s.seq.byten = 11 →
          step s = .next { edgeBase s with
            tx := false
            seq := { s.seq with
              sh := v, bitn := 0#3, byten := 0, cnt := 0#16, phase := .calc
              pkt := s.seq.pkt.set s.seq.byten.val v s.seq.byten.isLt } }))

/-- The error exit: the five errors, each at its edge, make the next state differ from the present one in exactly what
`failedAttempt` writes; only ChecksumMismatch keeps the checksum pair (R206; causes R201 to R205). -/
def Obligations.ErrorExitWritesExactlyThis : Prop :=
  ∀ s : State,
    (WorkingIn .precheck s → rxAt s 0 = false → step s = .next (failedAttempt s 1#3 0#12 0#16 false)) ∧
    (WorkingIn .charge s → s.seq.cnt.toNat = s.params.tCharge - 1 → rxAt s 0 = false →
      step s = .next (failedAttempt s 2#3 0#12 0#16 false)) ∧
    (WorkingIn .waitHigh s → s.seq.first = true → s.seq.cnt.toNat = s.params.tFirst → rxAt s 0 = false →
      step s = .next (failedAttempt s 3#3 0#12 0#16 false)) ∧
    (WorkingIn .waitHigh s → s.seq.first = false → s.seq.cnt.toNat = s.params.tBit → rxAt s 0 = false →
      step s = .next (failedAttempt s 4#3 0#12 0#16 false)) ∧
    (WorkingIn .measHigh s → s.seq.cnt.toNat = s.params.tBit → rxAt s 0 = true →
      step s = .next (failedAttempt s 4#3 0#12 0#16 false)) ∧
    (WorkingIn .calc s → s.seq.op = .read → s.seq.cnt.toNat = s.params.tCalc - 1 →
      checksumMatches s.seq.pkt = false →
      step s = .next (failedAttempt s 5#3 (checksumField s.seq.pkt) (payloadSum s.seq.pkt) true))

/-- The checksum arithmetic: the field is the low 12 bits of the header with byte 0 as its high byte, the sum of the ten
payload bytes never wraps in 16 bits and is below 4096, so the packet matches exactly when field and sum are the same
number (R116; spec/30_encoding.md R74). That byte 0 is the high byte is the spec's own inference (spec/20_memory.md R53,
assumption 11). -/
def Obligations.ChecksumComparesExactNumbers : Prop :=
  ∀ pkt : Vector Byte 12,
    (checksumField pkt).toNat = (pkt[0].toNat * 256 + pkt[1].toNat) % 4096
    ∧ (payloadSum pkt).toNat =
        pkt[2].toNat + pkt[3].toNat + pkt[4].toNat + pkt[5].toNat + pkt[6].toNat + pkt[7].toNat + pkt[8].toNat
          + pkt[9].toNat + pkt[10].toNat + pkt[11].toNat
    ∧ (payloadSum pkt).toNat ≤ 2550
    ∧ (checksumMatches pkt = true ↔ (payloadSum pkt).toNat = (checksumField pkt).toNat)

/-- The success commit of a READ: the reading, the checksum pair, the level of the new reading and the volume of the new
level, `ERR` 0, `DONE` 1, `tx` 0, the pacing counter 0 and phase IDLE, all at one edge, and nothing else
(spec/43_orchestrator_and_commands.md R175, R118). -/
def Obligations.SuccessCommitWritesExactlyThis : Prop :=
  ∀ s : State, WorkingIn .calc s → s.seq.op = .read → s.seq.cnt.toNat = s.params.tCalc - 1 →
    checksumMatches s.seq.pkt = true →
    ∃ t, step s = .next t
      ∧ (∀ i : Fin 10, t.res.seg[i] = s.seq.pkt[2 + i.val]) ∧ t.res.segValid = true
      ∧ t.res.csExp = checksumField s.seq.pkt ∧ t.res.csAct = payloadSum s.seq.pkt ∧ t.res.csv = true
      ∧ t.res.level.toNat = estimateLevel s.params t.res.seg s.cfg.segcnt.val ∧ t.res.levelValid = true
      ∧ t.res.volume.toInt =
          (estimateVolume true t.res.level.toNat (calPoints s.cfg) s.cfg.invert).2
      ∧ t.res.volValid = decide (0 < s.cfg.npoints.val)
      ∧ t.res.err = 0#3 ∧ t.done = true ∧ t.tx = false ∧ t.idleUs = 0#24
      ∧ t.seq = { s.seq with phase := .idle } ∧ t.cfg = s.cfg ∧ t.ill = s.ill
      ∧ t.ovr = (s.ovr || (nextInputs s).isWrite)

/-! ### Whole commands -/

/-- LEVEL, whole. After its acceptance the block is in CALC for `T_CALC` ticks, and in them only three things move: CALC's
count, the pacing counter, and `OVR` when a write is dropped; the results, the host's registers, `tx`, `ILL`, `DONE` (0) and
the rest of the sequencer stay. Then the level is recomputed from the stored reading (or cleared when there is none), the
volume is recomputed from it, `DONE` is 1 and the block idle; the reading, the checksum pair, `ERR`, the host's registers,
`tx` and `ILL` are as before, and the pacing counter counts on (spec/43_orchestrator_and_commands.md R178, R180). -/
def Obligations.LevelRecomputesFromTheReading : Prop :=
  ∀ s : State, s.params.legal = true → acceptedCommand s = some .level → ResetFree s (1 + s.params.tCalc) →
    (∀ k < s.params.tCalc, ∃ u, run (1 + k) s = .next u
      ∧ u.seq = { s.seq with phase := .calc, cnt := BitVec.ofNat 16 k, op := .level }
      ∧ u.done = false ∧ u.res = s.res ∧ u.cfg = s.cfg ∧ u.tx = s.tx ∧ u.ill = s.ill
      ∧ u.ovr = (s.ovr || writesAmong s 1 k)
      ∧ u.idleUs.toNat = min (s.idleUs.toNat + (1 + k)) 16777215) ∧
    ∃ t, run (1 + s.params.tCalc) s = .next t
      ∧ t.seq.phase = .idle ∧ t.done = true ∧ t.tx = s.tx ∧ t.cfg = s.cfg ∧ t.ill = s.ill
      ∧ t.ovr = (s.ovr || writesAmong s 1 s.params.tCalc)
      ∧ t.idleUs.toNat = min (s.idleUs.toNat + (1 + s.params.tCalc)) 16777215
      ∧ t.res.seg = s.res.seg ∧ t.res.segValid = s.res.segValid ∧ t.res.csExp = s.res.csExp
      ∧ t.res.csAct = s.res.csAct ∧ t.res.csv = s.res.csv ∧ t.res.err = s.res.err
      ∧ t.res.levelValid = s.res.segValid
      ∧ t.res.level.toNat =
          (if s.res.segValid = true then estimateLevel s.params s.res.seg s.cfg.segcnt.val else 0)
      ∧ t.res.volValid =
          (estimateVolume s.res.segValid t.res.level.toNat (calPoints s.cfg) s.cfg.invert).1
      ∧ t.res.volume.toInt =
          (estimateVolume s.res.segValid t.res.level.toNat (calPoints s.cfg) s.cfg.invert).2

/-- VOLUME, whole: `T_CALC` ticks of CALC, and then the volume recomputed from the stored level (Undefined when there is
none), `DONE` 1 and the block idle; everything else as before, the pacing counter counting on
(spec/43_orchestrator_and_commands.md R179, R180). -/
def Obligations.VolumeRecomputesFromTheLevel : Prop :=
  ∀ s : State, s.params.legal = true → acceptedCommand s = some .volume → ResetFree s (1 + s.params.tCalc) →
    (∀ k < s.params.tCalc, ∃ u, run (1 + k) s = .next u ∧ u.seq.phase = .calc ∧ u.done = false ∧ u.res = s.res) ∧
    ∃ t, run (1 + s.params.tCalc) s = .next t
      ∧ t.seq.phase = .idle ∧ t.done = true ∧ t.tx = s.tx ∧ t.cfg = s.cfg ∧ t.ill = s.ill
      ∧ t.ovr = (s.ovr || writesAmong s 1 s.params.tCalc)
      ∧ t.idleUs.toNat = min (s.idleUs.toNat + (1 + s.params.tCalc)) 16777215
      ∧ t.res = { s.res with volume := t.res.volume, volValid := t.res.volValid }
      ∧ t.res.volValid =
          (estimateVolume s.res.levelValid s.res.level.toNat (calPoints s.cfg) s.cfg.invert).1
      ∧ t.res.volume.toInt =
          (estimateVolume s.res.levelValid s.res.level.toNat (calPoints s.cfg) s.cfg.invert).2

/-- The transmit frame up to the start of listening, of an attempt whose line passes both checks: tick by tick, `tx` is high for `T_CHARGE` ticks, then `ADDR` times low
for `T_ADDR_LOW` and high for `T_ADDR_HIGH` ticks, and then listening starts with `tx` at `TX_LISTEN`;
the level of `tx` in the rest of the attempt is in the invariant and in the exits (spec/30_encoding.md R77, spec/40_wire_decoder.md R102 to R106, R124). -/
def Obligations.TransmitFrameIsSent : Prop :=
  ∀ s : State, StartsAttempt s → s.tx = false → ResetFree s (stepsToListening s) → LinePassesChecks s →
    (observe (stepsToListening s) s).map Outputs.tx =
      [false, false] ++ List.replicate s.params.tCharge true
        ++ (List.replicate s.cfg.addr.toNat
            (List.replicate s.params.tAddrLow false ++ List.replicate s.params.tAddrHigh true)).flatten ∧
    ∃ t, run (stepsToListening s) s = .next t
      ∧ t.tx = s.params.txListen ∧ t.seq.phase = .waitHigh ∧ t.seq.cnt = 0#16 ∧ t.seq.first = true
      ∧ t.seq.byten = 0 ∧ t.seq.bitn = 0#3 ∧ t.seq.op = .read ∧ t.done = false ∧ t.res = s.res ∧ t.cfg = s.cfg

/-- The wire encoding is decoded: from the start of listening, every train of 96 acceptable pulses that carries a packet
leaves exactly that packet in the buffer and the block in CALC with `tx` 0, whatever the bus does meanwhile
(spec/20_memory.md R52, spec/30_encoding.md R75, R76, spec/40_wire_decoder.md R110 to R115). That the parameters are the same
at the end is the model's choice of where they stand (assumption 4). -/
def Obligations.PacketOfPulsesIsReceived : Prop :=
  ∀ (s : State) (ps : List Pulse) (pkt : Vector Byte 12),
    s.params.legal = true → s.seq.phase = .waitHigh → s.seq.op = .read → s.seq.cnt = 0#16 → s.seq.first = true →
    s.seq.byten = 0 → s.seq.bitn = 0#3 → AcceptablePulses s.params ps → Carries ps pkt →
    ResetFree s (pulseSamples ps).length →
    (∀ k < (pulseSamples ps).length, some (rxAt s k) = (pulseSamples ps)[k]?) →
    ∃ t, run (pulseSamples ps).length s = .next t
      ∧ t.seq.pkt = pkt ∧ t.seq.phase = .calc ∧ t.seq.cnt = 0#16 ∧ t.seq.op = .read ∧ t.tx = false
      ∧ t.res = s.res ∧ t.cfg = s.cfg ∧ t.done = s.done ∧ t.params = s.params

/-- A whole READ of a packet: accepted, the line passing both checks, the sensor answering with 96 acceptable pulses that
carry `pkt`. The block is busy with the old results until the commit edge, `1 + T_CHARGE + ADDR * (T_ADDR_LOW +
T_ADDR_HIGH) + W + T_CALC` edges after the acceptance; then a matching packet's payload is the reading, with its level and
volume, and a packet that does not match is a ChecksumMismatch with no byte exposed
(spec/43_orchestrator_and_commands.md R175, R176, spec/40_wire_decoder.md R116 to R118, spec/70_reset_and_hazards.md
R248). -/
def Obligations.ReadOfAPacketCommits : Prop :=
  ∀ (s : State) (ps : List Pulse) (pkt : Vector Byte 12) (n : Nat),
    StartsAttempt s → LinePassesChecks s → AcceptablePulses s.params ps → Carries ps pkt →
    (∀ k < (pulseSamples ps).length, some (rxAt s (stepsToListening s + k)) = (pulseSamples ps)[k]?) →
    n = stepsToListening s + (pulseSamples ps).length + s.params.tCalc → ResetFree s n →
    (∀ k < n, 1 ≤ k → ∃ u, run k s = .next u ∧ u.seq.phase ≠ .idle ∧ u.done = false ∧ u.res = s.res) ∧
    ∃ t, run n s = .next t
      ∧ t.seq.phase = .idle ∧ t.tx = false ∧ t.done = true ∧ t.idleUs = 0#24 ∧ t.cfg = s.cfg
      ∧ t.res.csExp = checksumField pkt ∧ t.res.csAct = payloadSum pkt ∧ t.res.csv = true
      ∧ (checksumMatches pkt = true →
          t.res.seg = payload pkt ∧ t.res.segValid = true ∧ t.res.err = 0#3 ∧ t.res.levelValid = true
          ∧ t.res.level.toNat = estimateLevel s.params (payload pkt) s.cfg.segcnt.val
          ∧ t.res.volValid = decide (0 < s.cfg.npoints.val)
          ∧ t.res.volume.toInt =
              (estimateVolume true t.res.level.toNat (calPoints s.cfg) s.cfg.invert).2)
      ∧ (checksumMatches pkt = false →
          t.res.seg = Vector.replicate 10 0#8 ∧ t.res.segValid = false ∧ t.res.err = 5#3
          ∧ t.res.level = 0#16 ∧ t.res.levelValid = false ∧ t.res.volume = 0#32 ∧ t.res.volValid = false)

/-- A READ whose line passes both checks and stays low in the `T_FIRST + 1` samples of the first wait ends NoResponse at
exactly the edge `l + T_FIRST + 1`, and not before (spec/40_wire_decoder.md R110, R124, spec/60_exceptions.md R203,
spec/70_reset_and_hazards.md R248). -/
def Obligations.SilentLineEndsNoResponse : Prop :=
  ∀ s : State, StartsAttempt s → LinePassesChecks s →
    ResetFree s (stepsToListening s + s.params.tFirst + 1) →
    (∀ k ≤ s.params.tFirst, rxAt s (stepsToListening s + k) = false) →
    (∀ k ≤ stepsToListening s + s.params.tFirst, 1 ≤ k → ∃ u, run k s = .next u ∧ u.seq.phase ≠ .idle) ∧
    ∃ t, run (stepsToListening s + s.params.tFirst + 1) s = .next t
      ∧ t.seq.phase = .idle ∧ t.tx = false ∧ t.done = true ∧ t.idleUs = 0#24 ∧ t.res.err = 3#3
      ∧ t.res.segValid = false ∧ t.res.levelValid = false ∧ t.res.volValid = false ∧ t.res.csv = false

/-- Every READ ends, whatever `rx` and the bus do: it commits at most `1 + T_CHARGE + ADDR * (T_ADDR_LOW + T_ADDR_HIGH) +
(T_FIRST + 1) + 96 * T_BIT + 95 * (T_BIT + 1) + T_CALC` edges after its acceptance edge, and is busy until then
(spec/70_reset_and_hazards.md R248, spec/30_encoding.md R83). -/
def Obligations.ReadEndsWithinTheBound : Prop :=
  ∀ (s : State) (bound : Nat), StartsAttempt s →
    bound = 1 + s.params.tCharge + addressTicks s + (s.params.tFirst + 1) + 96 * s.params.tBit
      + 95 * (s.params.tBit + 1) + s.params.tCalc →
    ResetFree s (1 + bound) →
    ∃ k, 1 ≤ k ∧ k ≤ bound
      ∧ (∀ j < k, ∃ u, run (1 + j) s = .next u ∧ u.seq.phase ≠ .idle)
      ∧ ∃ t, run (1 + k) s = .next t ∧ t.seq.phase = .idle ∧ t.done = true ∧ t.tx = false ∧ t.idleUs = 0#24

/-- A READ whose line is low at the precheck edge commits InterfaceFault one edge after its acceptance, and `tx` never rises
(spec/60_exceptions.md R201, spec/40_wire_decoder.md R101). -/
def Obligations.LowIdleLineEndsInterfaceFault : Prop :=
  ∀ s : State, StartsAttempt s → s.tx = false → ResetFree s 2 → rxAt s 1 = false →
    ((observe 3 s).map Outputs.tx = [false, false, false]) ∧
    ∃ t, run 2 s = .next t ∧ t.seq.phase = .idle ∧ t.tx = false ∧ t.done = true ∧ t.idleUs = 0#24 ∧ t.res.err = 1#3
      ∧ t.res.segValid = false ∧ t.res.levelValid = false ∧ t.res.volValid = false ∧ t.res.csv = false

/-! ### Rules about every step -/

/-- The invariant holds after reset (spec/10_state.md R43, R44). -/
def Obligations.ResetStateMeetsTheInvariant : Prop := Inv State.reset

/-- Every step keeps the invariant: the level of `tx` in each phase, the results with their flags and ranges, the counters
within their limits, the command in flight (spec/10_state.md R24, R28, R40, R43; spec/40_wire_decoder.md R122, R123). -/
def Obligations.EveryStepKeepsTheInvariant : Prop := ∀ s t : State, Inv s → step s = .next t → Inv t

/-- The machine never stops: from every state that meets the invariant, with legal parameters, and for all inputs, a step
answers a next state (spec/30_encoding.md R83: "no stuck state and no fault state"). -/
def Obligations.StepIsTotalUnderTheInvariant : Prop :=
  ∀ s : State, Inv s → s.params.legal = true → ∃ t, step s = .next t

/-- The phase moves only as the table lists: at an edge without reset, from each phase only to the phases of its rows, and
out of IDLE only by an accepted READ, LEVEL or VOLUME (spec/40_wire_decoder.md R122). -/
def Obligations.PhaseMovesOnlyAsListed : Prop :=
  ∀ s t : State, (nextInputs s).rst = false → step s = .next t →
    match s.seq.phase with
    | .idle =>
      t.seq.phase =
        (match acceptedCommand s with
        | some .read => if s.idleUs.toNat < s.cfg.minPause.toNat then .idle else .precheck
        | some .level => .calc
        | some .volume => .calc
        | some .nop => .idle
        | some .clear => .idle
        | none => .idle)
    | .precheck => t.seq.phase = (if rxAt s 0 = true then .charge else .idle)
    | .charge =>
      t.seq.phase =
        (if s.seq.cnt.toNat ≠ s.params.tCharge - 1 then .charge
        else if rxAt s 0 = false then .idle
        else if s.cfg.addr = 0#4 then .waitHigh else .addrLow)
    | .addrLow => t.seq.phase = (if s.seq.cnt.toNat = s.params.tAddrLow - 1 then .addrHigh else .addrLow)
    | .addrHigh =>
      t.seq.phase =
        (if s.seq.cnt.toNat ≠ s.params.tAddrHigh - 1 then .addrHigh
        else if s.seq.pulse = 1#4 then .waitHigh else .addrLow)
    | .waitHigh =>
      t.seq.phase =
        (if rxAt s 0 = true then .measHigh
        else if s.seq.cnt.toNat = (if s.seq.first = true then s.params.tFirst else s.params.tBit) then .idle
        else .waitHigh)
    | .measHigh =>
      t.seq.phase =
        (if rxAt s 0 = true then (if s.seq.cnt.toNat = s.params.tBit then .idle else .measHigh)
        else if s.seq.bitn = 7#3 ∧ s.seq.byten = 11 then .calc else .waitHigh)
    | .calc => t.seq.phase = (if s.seq.cnt.toNat = s.params.tCalc - 1 then .idle else .calc)

/-- The pacing counter: 0 after the edge at which an attempt commits, and otherwise one more, saturating, at every edge
without reset (spec/43_orchestrator_and_commands.md R177). -/
def Obligations.PacingCounterCountsFromTheLastAttempt : Prop :=
  ∀ s t : State, (nextInputs s).rst = false → step s = .next t →
    t.idleUs.toNat =
      if s.seq.phase ≠ .idle ∧ t.seq.phase = .idle ∧ (s.seq.phase = .calc → s.seq.op = .read) then 0
      else min (s.idleUs.toNat + 1) 16777215

/-- The results change only at a commit: a busy edge that ends in IDLE, or the acceptance edge of a RateLimited READ
(spec/10_state.md R22, R28, R30, spec/20_memory.md R56, spec/70_reset_and_hazards.md R240); and `ERR`, `CSV`, the checksum
pair and the reading only at the commit of a READ. -/
def Obligations.ResultsChangeOnlyAtCommits : Prop :=
  ∀ s t : State, (nextInputs s).rst = false → step s = .next t →
    (t.res ≠ s.res →
      (s.seq.phase ≠ .idle ∧ t.seq.phase = .idle) ∨
        (acceptedCommand s = some .read ∧ s.idleUs.toNat < s.cfg.minPause.toNat)) ∧
    (t.res.err ≠ s.res.err ∨ t.res.csv ≠ s.res.csv ∨ t.res.csExp ≠ s.res.csExp ∨ t.res.csAct ≠ s.res.csAct
        ∨ t.res.seg ≠ s.res.seg ∨ t.res.segValid ≠ s.res.segValid →
      (s.seq.phase = .calc → s.seq.op = .read))

/-- The host's registers change only by a bus write at an idle edge, so a command sees the configuration written before its
acceptance (spec/20_memory.md R58, R61). -/
def Obligations.HostRegistersChangeOnlyByIdleWrites : Prop :=
  ∀ s t : State, (nextInputs s).rst = false → step s = .next t → t.cfg ≠ s.cfg →
    s.seq.phase = .idle ∧ (nextInputs s).isWrite = true ∧ (nextInputs s).addr ≠ 0#6

/-- No step changes the parameter set, an edge with reset included: that the parameters stand in the model's state is the
model's choice (assumption 4); that they are no state of the block is spec/10_state.md R20. -/
def Obligations.NoStepChangesTheParameters : Prop := ∀ s t : State, step s = .next t → t.params = s.params

/-- `DONE`: set by the commit of a READ, LEVEL or VOLUME, a RateLimited READ included; cleared by the acceptance of a READ,
LEVEL, VOLUME or CLEAR; changed by nothing else (spec/10_state.md R27). -/
def Obligations.DoneFollowsCommitsAndAcceptances : Prop :=
  ∀ s t : State, (nextInputs s).rst = false → step s = .next t →
    t.done =
      if s.seq.phase ≠ .idle then (if t.seq.phase = .idle then true else s.done)
      else
        match acceptedCommand s with
        | some .read => decide (s.idleUs.toNat < s.cfg.minPause.toNat)
        | some .level => false
        | some .volume => false
        | some .clear => false
        | some .nop => s.done
        | none => s.done

/-- `OVR` and `ILL` are sticky: `OVR` is set by a write at a busy edge and `ILL` by a reserved code at an idle edge, each is
cleared by an accepted CLEAR, and nothing else changes them (spec/10_state.md R29). -/
def Obligations.StickyFlagsAreClearedOnlyByClear : Prop :=
  ∀ s t : State, (nextInputs s).rst = false → step s = .next t →
    (t.ovr = true ↔
      (s.ovr = true ∧ acceptedCommand s ≠ some .clear) ∨ (s.seq.phase ≠ .idle ∧ (nextInputs s).isWrite = true)) ∧
    (t.ill = true ↔ (s.ill = true ∧ acceptedCommand s ≠ some .clear) ∨ WritesReservedCode s)

/-- `rx` matters exactly at the PRECHECK edge, the last CHARGE edge and the edges of WAIT_HIGH and MEAS_HIGH: there the two
samples lead to different steps, and at every other edge to the same step (spec/40_wire_decoder.md R107). -/
def Obligations.RxMattersExactlyWhereStated : Prop :=
  ∀ (s : State) (i : Inputs) (rest : List Inputs),
    if s.seq.phase = .precheck ∨ s.seq.phase = .waitHigh ∨ s.seq.phase = .measHigh
        ∨ (s.seq.phase = .charge ∧ s.seq.cnt.toNat = s.params.tCharge - 1) then
      s.params.legal = true → i.rst = false →
        step { s with inputs := { i with rx := false } :: rest } ≠ step { s with inputs := { i with rx := true } :: rest }
    else step { s with inputs := { i with rx := false } :: rest } = step { s with inputs := { i with rx := true } :: rest }

/-! ### The level estimator (spec/41_level_estimator.md) -/

/-- The level never exceeds the segment count, `level <= n * 4096`, and is at most `(m - 1) * 4096 + CAP_TOP` with `m >= 1`
wet segments (R139 (a), (d); R136). -/
def Obligations.LevelNeverExceedsTheSegments : Prop :=
  ∀ (p : Params) (r : Vector Byte 10) (n : Nat), p.legal = true → n ≤ 10 →
    estimateLevel p r n ≤ n * 4096 ∧ estimateLevel p r n ≤ 40960
    ∧ (1 ≤ (wetSegments p r n).length →
        estimateLevel p r n ≤ ((wetSegments p r n).length - 1) * 4096 + p.capTop)

/-- The level is 0 exactly when nothing is scanned or the bottom scanned segment is below the noise floor, whatever the other
segments hold (R132, R137, R139 (b), (c)). -/
def Obligations.LevelIsZeroExactlyWhenTheBottomIsDry : Prop :=
  ∀ (p : Params) (r : Vector Byte 10) (n : Nat), p.legal = true → n ≤ 10 →
    (estimateLevel p r n = 0 ↔ n = 0 ∨ (r.toList.getD (n - 1) 0#8).toNat < p.noiseFloor)

/-- The level depends only on `n` and on the entries from the bottom scanned one up to and including the first entry below
the noise floor (or up to entry 0 when there is none): two readings that agree on these have the same level (R131, R132,
R139 (e)). -/
def Obligations.LevelIgnoresWhatTheScanDoesNotReach : Prop :=
  ∀ (p : Params) (r r' : Vector Byte 10) (n k : Nat), p.legal = true → n ≤ 10 →
    (k = 0 ∨ (k < n ∧ (r.toList.getD k 0#8).toNat < p.noiseFloor)) →
    (∀ j, k ≤ j → j < n → r'.toList.getD j 0#8 = r.toList.getD j 0#8) →
    estimateLevel p r' n = estimateLevel p r n

/-- Raising the value of the topmost wet segment `r[k]`, all others fixed, never lowers the level (R139 (f)). -/
def Obligations.RaisingTheTopmostWetSegmentNeverLowersTheLevel : Prop :=
  ∀ (p : Params) (r : Vector Byte 10) (n : Nat) (k : Fin 10) (v : Byte), p.legal = true → n ≤ 10 →
    1 ≤ (wetSegments p r n).length → k.val + (wetSegments p r n).length = n → r[k].toNat ≤ v.toNat →
    estimateLevel p r n ≤ estimateLevel p (r.set k.val v k.isLt) n

/-- The estimator is not monotone in every segment: at the reference parameters, raising the bottom segment from 230 to 255
lowers the level from `0x1F7C` to `0x1DF7` (R140 (1)). -/
def Obligations.RaisingASegmentCanLowerTheLevel : Prop :=
  estimateLevel Config.reference #v[0#8, 0#8, 0#8, 0#8, 0#8, 0#8, 0#8, 0#8, 200#8, 230#8] 10 = 0x1F7C ∧
  estimateLevel Config.reference #v[0#8, 0#8, 0#8, 0#8, 0#8, 0#8, 0#8, 0#8, 200#8, 255#8] 10 = 0x1DF7

/-- The sequential listing of section 3, with its pending contribution, computes what the rules R131 to R136 define. -/
def Obligations.SequentialListingComputesTheLevel : Prop :=
  ∀ (p : Params) (r : Vector Byte 10) (n : Nat), p.legal = true → n ≤ 10 →
    estimateLevelSequential p r n = estimateLevel p r n

/-! ### The volume interpolator (spec/42_volume_interpolator.md) -/

/-- Undefined in, Undefined out, and the empty table is Undefined (R151); a defined result is inverted against the last entry
in use (R155); with one point the result is that point's volume, and 0 inverted (R153, R155). -/
def Obligations.VolumeCasesBeforeTheSearch : Prop :=
  (∀ (l : Nat) (pts : List CalPoint) (inv : Bool), estimateVolume false l pts inv = (false, 0)) ∧
  (∀ (lv : Bool) (l : Nat) (inv : Bool), estimateVolume lv l [] inv = (false, 0)) ∧
  (∀ (l : Nat) (pts : List CalPoint) (h : pts ≠ []),
    (estimateVolume true l pts true).1 = true ∧ (estimateVolume true l pts false).1 = true ∧
    (estimateVolume true l pts true).2 = ((pts.getLast h).vol : Int) - (estimateVolume true l pts false).2) ∧
  (∀ (l : Nat) (c : CalPoint),
    estimateVolume true l [c] false = (true, (c.vol : Int)) ∧ estimateVolume true l [c] true = (true, 0))

/-- The search stops at the least entry whose level strictly exceeds the input, or at the number of entries when none does
(R152), on every table; and the divisor of R154 is then at least 1 (R154, R158). -/
def Obligations.SearchStopsAtTheFirstExceedingLevel : Prop :=
  ∀ (pts : List CalPoint) (l : Nat),
    searchPoint pts l ≤ pts.length ∧
    (∀ k < searchPoint pts l, (pts.getD k ⟨0, 0⟩).level ≤ l) ∧
    (searchPoint pts l < pts.length → l < (pts.getD (searchPoint pts l) ⟨0, 0⟩).level) ∧
    (1 ≤ searchPoint pts l → searchPoint pts l < pts.length →
      (pts.getD (searchPoint pts l - 1) ⟨0, 0⟩).level < (pts.getD (searchPoint pts l) ⟨0, 0⟩).level)

/-- Between two entries the volume is that of the linear interpolation with one floor: with `dl`, `dL`, `dV` of R154, the
divisor is at least 1, `0 <= dl < dL`, and `(W - low.vol) * dL <= dl * dV < (W - low.vol + 1) * dL`, which fixes `W`; it lies
between the two volumes (R154, R159). -/
def Obligations.InterpolationIsOneFloor : Prop :=
  ∀ (pts : List CalPoint) (l j : Nat) (low high : CalPoint),
    j = searchPoint pts l → 1 ≤ j → pts[j - 1]? = some low → pts[j]? = some high →
    let w := (estimateVolume true l pts false).2
    let dl : Int := (l : Int) - low.level
    let dL : Int := (high.level : Int) - low.level
    let dV : Int := (high.vol : Int) - low.vol
    1 ≤ dL ∧ 0 ≤ dl ∧ dl < dL ∧ (w - low.vol) * dL ≤ dl * dV ∧ dl * dV < (w - low.vol + 1) * dL
    ∧ min (low.vol : Int) high.vol ≤ w ∧ w ≤ max (low.vol : Int) high.vol

/-- Exact at breakpoints on a table of strictly increasing levels (R157 (a)). -/
def Obligations.VolumeIsExactAtBreakpoints : Prop :=
  ∀ (pts : List CalPoint) (k : Nat) (c : CalPoint), (pts.map CalPoint.level).Pairwise (· < ·) → pts[k]? = some c →
    estimateVolume true c.level pts false = (true, (c.vol : Int))

/-- Clamping: below the first entry's level the first entry's volume, at or above every level in the table the last entry's,
0 when inverted (R153, R155, R157 (b)). -/
def Obligations.VolumeClampsOutsideTheTable : Prop :=
  ∀ (pts : List CalPoint) (l : Nat) (h : pts ≠ []),
    (l < (pts.head h).level → estimateVolume true l pts false = (true, ((pts.head h).vol : Int))) ∧
    ((∀ c ∈ pts, c.level ≤ l) →
      estimateVolume true l pts false = (true, ((pts.getLast h).vol : Int)) ∧
      estimateVolume true l pts true = (true, 0))

/-- The volume lies between the smallest and the largest volume in use, on every table (R157 (c)). -/
def Obligations.VolumeLiesBetweenTheEntries : Prop :=
  ∀ (pts : List CalPoint) (l lo hi : Nat), pts ≠ [] → (∀ c ∈ pts, lo ≤ c.vol ∧ c.vol ≤ hi) →
    (lo : Int) ≤ (estimateVolume true l pts false).2 ∧ (estimateVolume true l pts false).2 ≤ (hi : Int)

/-- On a sorted table with non-decreasing volumes the volume is non-decreasing in the level (R157 (d)). -/
def Obligations.VolumeIsNondecreasingOnSortedTables : Prop :=
  ∀ (pts : List CalPoint) (l l' : Nat), (pts.map CalPoint.level).Pairwise (· ≤ ·) →
    (pts.map CalPoint.vol).Pairwise (· ≤ ·) → l ≤ l' →
    (estimateVolume true l pts false).2 ≤ (estimateVolume true l' pts false).2

/-- No overflow anywhere: for every content of the host's registers and every level, the volume before inversion is between 0
and 16777215 and the result, inverted or not, between -16777215 and 16777215, so the 32-bit register holds exactly that
number (R156). -/
def Obligations.VolumeFitsItsRegister : Prop :=
  ∀ (c : HostRegs) (lv inv : Bool) (l : Nat),
    0 ≤ (estimateVolume lv l (calPoints c) false).2 ∧ (estimateVolume lv l (calPoints c) false).2 ≤ 16777215
    ∧ -16777215 ≤ (estimateVolume lv l (calPoints c) inv).2 ∧ (estimateVolume lv l (calPoints c) inv).2 ≤ 16777215
    ∧ (BitVec.ofInt 32 (estimateVolume lv l (calPoints c) inv).2).toInt
        = (estimateVolume lv l (calPoints c) inv).2
end

