-- ==== Sys2Proof/Laws/State.lean ====
section
/-! SUPPORT. What each named update of the state writes and leaves: one lemma per field per update, all true by `rfl`, so
that no proof unfolds a record update. The two updates whose results depend on a condition have their results lemma in
`Laws/Ops.lean`. -/

namespace Sys2Proof.Machine

/-! ### `advance` -/

@[simp] theorem advance_tx (s : State) : (advance s).tx = s.tx := rfl
@[simp] theorem advance_done (s : State) : (advance s).done = s.done := rfl
@[simp] theorem advance_ovr (s : State) : (advance s).ovr = s.ovr := rfl
@[simp] theorem advance_ill (s : State) : (advance s).ill = s.ill := rfl
@[simp] theorem advance_res (s : State) : (advance s).res = s.res := rfl
@[simp] theorem advance_cfg (s : State) : (advance s).cfg = s.cfg := rfl
@[simp] theorem advance_idleUs (s : State) : (advance s).idleUs = pacingNext s.idleUs := rfl
@[simp] theorem advance_seq (s : State) : (advance s).seq = s.seq := rfl
@[simp] theorem advance_params (s : State) : (advance s).params = s.params := rfl
@[simp] theorem advance_inputs (s : State) : (advance s).inputs = s.inputs.tail := rfl
@[simp] theorem advance_edge (s : State) : (advance s).edge = s.edge + 1 := rfl

/-! ### `rateLimitedExit` -/

@[simp] theorem rateLimitedExit_tx (s : State) : (rateLimitedExit s).tx = s.tx := rfl
@[simp] theorem rateLimitedExit_done (s : State) : (rateLimitedExit s).done = true := rfl
@[simp] theorem rateLimitedExit_ovr (s : State) : (rateLimitedExit s).ovr = s.ovr := rfl
@[simp] theorem rateLimitedExit_ill (s : State) : (rateLimitedExit s).ill = s.ill := rfl
@[simp] theorem rateLimitedExit_res (s : State) : (rateLimitedExit s).res = Results.failed .rateLimited 0#12 0#16 false := rfl
@[simp] theorem rateLimitedExit_cfg (s : State) : (rateLimitedExit s).cfg = s.cfg := rfl
@[simp] theorem rateLimitedExit_idleUs (s : State) : (rateLimitedExit s).idleUs = s.idleUs := rfl
@[simp] theorem rateLimitedExit_seq (s : State) : (rateLimitedExit s).seq = s.seq := rfl
@[simp] theorem rateLimitedExit_params (s : State) : (rateLimitedExit s).params = s.params := rfl
@[simp] theorem rateLimitedExit_inputs (s : State) : (rateLimitedExit s).inputs = s.inputs := rfl
@[simp] theorem rateLimitedExit_edge (s : State) : (rateLimitedExit s).edge = s.edge := rfl

/-! ### `startAttempt` -/

@[simp] theorem startAttempt_tx (s : State) : (startAttempt s).tx = s.tx := rfl
@[simp] theorem startAttempt_done (s : State) : (startAttempt s).done = false := rfl
@[simp] theorem startAttempt_ovr (s : State) : (startAttempt s).ovr = s.ovr := rfl
@[simp] theorem startAttempt_ill (s : State) : (startAttempt s).ill = s.ill := rfl
@[simp] theorem startAttempt_res (s : State) : (startAttempt s).res = s.res := rfl
@[simp] theorem startAttempt_cfg (s : State) : (startAttempt s).cfg = s.cfg := rfl
@[simp] theorem startAttempt_idleUs (s : State) : (startAttempt s).idleUs = s.idleUs := rfl
@[simp] theorem startAttempt_phase (s : State) : (startAttempt s).seq.phase = .precheck := rfl
@[simp] theorem startAttempt_cnt (s : State) : (startAttempt s).seq.cnt = s.seq.cnt := rfl
@[simp] theorem startAttempt_pulse (s : State) : (startAttempt s).seq.pulse = s.seq.pulse := rfl
@[simp] theorem startAttempt_bitn (s : State) : (startAttempt s).seq.bitn = s.seq.bitn := rfl
@[simp] theorem startAttempt_byten (s : State) : (startAttempt s).seq.byten = s.seq.byten := rfl
@[simp] theorem startAttempt_first (s : State) : (startAttempt s).seq.first = s.seq.first := rfl
@[simp] theorem startAttempt_op (s : State) : (startAttempt s).seq.op = .read := rfl
@[simp] theorem startAttempt_sh (s : State) : (startAttempt s).seq.sh = s.seq.sh := rfl
@[simp] theorem startAttempt_pkt (s : State) : (startAttempt s).seq.pkt = s.seq.pkt := rfl
@[simp] theorem startAttempt_params (s : State) : (startAttempt s).params = s.params := rfl
@[simp] theorem startAttempt_inputs (s : State) : (startAttempt s).inputs = s.inputs := rfl
@[simp] theorem startAttempt_edge (s : State) : (startAttempt s).edge = s.edge := rfl

/-! ### `startCalc` -/

@[simp] theorem startCalc_tx (o : Op) (s : State) : (startCalc o s).tx = s.tx := rfl
@[simp] theorem startCalc_done (o : Op) (s : State) : (startCalc o s).done = false := rfl
@[simp] theorem startCalc_ovr (o : Op) (s : State) : (startCalc o s).ovr = s.ovr := rfl
@[simp] theorem startCalc_ill (o : Op) (s : State) : (startCalc o s).ill = s.ill := rfl
@[simp] theorem startCalc_res (o : Op) (s : State) : (startCalc o s).res = s.res := rfl
@[simp] theorem startCalc_cfg (o : Op) (s : State) : (startCalc o s).cfg = s.cfg := rfl
@[simp] theorem startCalc_idleUs (o : Op) (s : State) : (startCalc o s).idleUs = s.idleUs := rfl
@[simp] theorem startCalc_phase (o : Op) (s : State) : (startCalc o s).seq.phase = .calc := rfl
@[simp] theorem startCalc_cnt (o : Op) (s : State) : (startCalc o s).seq.cnt = 0#16 := rfl
@[simp] theorem startCalc_pulse (o : Op) (s : State) : (startCalc o s).seq.pulse = s.seq.pulse := rfl
@[simp] theorem startCalc_bitn (o : Op) (s : State) : (startCalc o s).seq.bitn = s.seq.bitn := rfl
@[simp] theorem startCalc_byten (o : Op) (s : State) : (startCalc o s).seq.byten = s.seq.byten := rfl
@[simp] theorem startCalc_first (o : Op) (s : State) : (startCalc o s).seq.first = s.seq.first := rfl
@[simp] theorem startCalc_op (o : Op) (s : State) : (startCalc o s).seq.op = o := rfl
@[simp] theorem startCalc_sh (o : Op) (s : State) : (startCalc o s).seq.sh = s.seq.sh := rfl
@[simp] theorem startCalc_pkt (o : Op) (s : State) : (startCalc o s).seq.pkt = s.seq.pkt := rfl
@[simp] theorem startCalc_params (o : Op) (s : State) : (startCalc o s).params = s.params := rfl
@[simp] theorem startCalc_inputs (o : Op) (s : State) : (startCalc o s).inputs = s.inputs := rfl
@[simp] theorem startCalc_edge (o : Op) (s : State) : (startCalc o s).edge = s.edge := rfl

/-! ### `countTick` -/

@[simp] theorem countTick_tx (s : State) : (countTick s).tx = s.tx := rfl
@[simp] theorem countTick_done (s : State) : (countTick s).done = s.done := rfl
@[simp] theorem countTick_ovr (s : State) : (countTick s).ovr = s.ovr := rfl
@[simp] theorem countTick_ill (s : State) : (countTick s).ill = s.ill := rfl
@[simp] theorem countTick_res (s : State) : (countTick s).res = s.res := rfl
@[simp] theorem countTick_cfg (s : State) : (countTick s).cfg = s.cfg := rfl
@[simp] theorem countTick_idleUs (s : State) : (countTick s).idleUs = s.idleUs := rfl
@[simp] theorem countTick_phase (s : State) : (countTick s).seq.phase = s.seq.phase := rfl
@[simp] theorem countTick_cnt (s : State) : (countTick s).seq.cnt = s.seq.cnt + 1#16 := rfl
@[simp] theorem countTick_pulse (s : State) : (countTick s).seq.pulse = s.seq.pulse := rfl
@[simp] theorem countTick_bitn (s : State) : (countTick s).seq.bitn = s.seq.bitn := rfl
@[simp] theorem countTick_byten (s : State) : (countTick s).seq.byten = s.seq.byten := rfl
@[simp] theorem countTick_first (s : State) : (countTick s).seq.first = s.seq.first := rfl
@[simp] theorem countTick_op (s : State) : (countTick s).seq.op = s.seq.op := rfl
@[simp] theorem countTick_sh (s : State) : (countTick s).seq.sh = s.seq.sh := rfl
@[simp] theorem countTick_pkt (s : State) : (countTick s).seq.pkt = s.seq.pkt := rfl
@[simp] theorem countTick_params (s : State) : (countTick s).params = s.params := rfl
@[simp] theorem countTick_inputs (s : State) : (countTick s).inputs = s.inputs := rfl
@[simp] theorem countTick_edge (s : State) : (countTick s).edge = s.edge := rfl

/-! ### `enterPhase` -/

@[simp] theorem enterPhase_tx (p : Phase) (v : Bool) (c : BitVec 16) (s : State) : (enterPhase p v c s).tx = v := rfl
@[simp] theorem enterPhase_done (p : Phase) (v : Bool) (c : BitVec 16) (s : State) : (enterPhase p v c s).done = s.done := rfl
@[simp] theorem enterPhase_ovr (p : Phase) (v : Bool) (c : BitVec 16) (s : State) : (enterPhase p v c s).ovr = s.ovr := rfl
@[simp] theorem enterPhase_ill (p : Phase) (v : Bool) (c : BitVec 16) (s : State) : (enterPhase p v c s).ill = s.ill := rfl
@[simp] theorem enterPhase_res (p : Phase) (v : Bool) (c : BitVec 16) (s : State) : (enterPhase p v c s).res = s.res := rfl
@[simp] theorem enterPhase_cfg (p : Phase) (v : Bool) (c : BitVec 16) (s : State) : (enterPhase p v c s).cfg = s.cfg := rfl
@[simp] theorem enterPhase_idleUs (p : Phase) (v : Bool) (c : BitVec 16) (s : State) : (enterPhase p v c s).idleUs = s.idleUs := rfl
@[simp] theorem enterPhase_phase (p : Phase) (v : Bool) (c : BitVec 16) (s : State) : (enterPhase p v c s).seq.phase = p := rfl
@[simp] theorem enterPhase_cnt (p : Phase) (v : Bool) (c : BitVec 16) (s : State) : (enterPhase p v c s).seq.cnt = c := rfl
@[simp] theorem enterPhase_pulse (p : Phase) (v : Bool) (c : BitVec 16) (s : State) : (enterPhase p v c s).seq.pulse = s.seq.pulse := rfl
@[simp] theorem enterPhase_bitn (p : Phase) (v : Bool) (c : BitVec 16) (s : State) : (enterPhase p v c s).seq.bitn = s.seq.bitn := rfl
@[simp] theorem enterPhase_byten (p : Phase) (v : Bool) (c : BitVec 16) (s : State) : (enterPhase p v c s).seq.byten = s.seq.byten := rfl
@[simp] theorem enterPhase_first (p : Phase) (v : Bool) (c : BitVec 16) (s : State) : (enterPhase p v c s).seq.first = s.seq.first := rfl
@[simp] theorem enterPhase_op (p : Phase) (v : Bool) (c : BitVec 16) (s : State) : (enterPhase p v c s).seq.op = s.seq.op := rfl
@[simp] theorem enterPhase_sh (p : Phase) (v : Bool) (c : BitVec 16) (s : State) : (enterPhase p v c s).seq.sh = s.seq.sh := rfl
@[simp] theorem enterPhase_pkt (p : Phase) (v : Bool) (c : BitVec 16) (s : State) : (enterPhase p v c s).seq.pkt = s.seq.pkt := rfl
@[simp] theorem enterPhase_params (p : Phase) (v : Bool) (c : BitVec 16) (s : State) : (enterPhase p v c s).params = s.params := rfl
@[simp] theorem enterPhase_inputs (p : Phase) (v : Bool) (c : BitVec 16) (s : State) : (enterPhase p v c s).inputs = s.inputs := rfl
@[simp] theorem enterPhase_edge (p : Phase) (v : Bool) (c : BitVec 16) (s : State) : (enterPhase p v c s).edge = s.edge := rfl

/-! ### `startListening` -/

@[simp] theorem startListening_tx (s : State) : (startListening s).tx = s.params.txListen := rfl
@[simp] theorem startListening_done (s : State) : (startListening s).done = s.done := rfl
@[simp] theorem startListening_ovr (s : State) : (startListening s).ovr = s.ovr := rfl
@[simp] theorem startListening_ill (s : State) : (startListening s).ill = s.ill := rfl
@[simp] theorem startListening_res (s : State) : (startListening s).res = s.res := rfl
@[simp] theorem startListening_cfg (s : State) : (startListening s).cfg = s.cfg := rfl
@[simp] theorem startListening_idleUs (s : State) : (startListening s).idleUs = s.idleUs := rfl
@[simp] theorem startListening_phase (s : State) : (startListening s).seq.phase = .waitHigh := rfl
@[simp] theorem startListening_cnt (s : State) : (startListening s).seq.cnt = 0#16 := rfl
@[simp] theorem startListening_pulse (s : State) : (startListening s).seq.pulse = s.seq.pulse := rfl
@[simp] theorem startListening_bitn (s : State) : (startListening s).seq.bitn = 0#3 := rfl
@[simp] theorem startListening_byten (s : State) : (startListening s).seq.byten = 0 := rfl
@[simp] theorem startListening_first (s : State) : (startListening s).seq.first = true := rfl
@[simp] theorem startListening_op (s : State) : (startListening s).seq.op = s.seq.op := rfl
@[simp] theorem startListening_sh (s : State) : (startListening s).seq.sh = 0#8 := rfl
@[simp] theorem startListening_pkt (s : State) : (startListening s).seq.pkt = s.seq.pkt := rfl
@[simp] theorem startListening_params (s : State) : (startListening s).params = s.params := rfl
@[simp] theorem startListening_inputs (s : State) : (startListening s).inputs = s.inputs := rfl
@[simp] theorem startListening_edge (s : State) : (startListening s).edge = s.edge := rfl

/-! ### `errorExit` -/

@[simp] theorem errorExit_tx (e : ErrorKind) (s : State) : (errorExit e s).tx = false := rfl
@[simp] theorem errorExit_done (e : ErrorKind) (s : State) : (errorExit e s).done = true := rfl
@[simp] theorem errorExit_ovr (e : ErrorKind) (s : State) : (errorExit e s).ovr = s.ovr := rfl
@[simp] theorem errorExit_ill (e : ErrorKind) (s : State) : (errorExit e s).ill = s.ill := rfl
@[simp] theorem errorExit_cfg (e : ErrorKind) (s : State) : (errorExit e s).cfg = s.cfg := rfl
@[simp] theorem errorExit_idleUs (e : ErrorKind) (s : State) : (errorExit e s).idleUs = 0#24 := rfl
@[simp] theorem errorExit_phase (e : ErrorKind) (s : State) : (errorExit e s).seq.phase = .idle := rfl
@[simp] theorem errorExit_cnt (e : ErrorKind) (s : State) : (errorExit e s).seq.cnt = s.seq.cnt := rfl
@[simp] theorem errorExit_pulse (e : ErrorKind) (s : State) : (errorExit e s).seq.pulse = s.seq.pulse := rfl
@[simp] theorem errorExit_bitn (e : ErrorKind) (s : State) : (errorExit e s).seq.bitn = s.seq.bitn := rfl
@[simp] theorem errorExit_byten (e : ErrorKind) (s : State) : (errorExit e s).seq.byten = s.seq.byten := rfl
@[simp] theorem errorExit_first (e : ErrorKind) (s : State) : (errorExit e s).seq.first = s.seq.first := rfl
@[simp] theorem errorExit_op (e : ErrorKind) (s : State) : (errorExit e s).seq.op = s.seq.op := rfl
@[simp] theorem errorExit_sh (e : ErrorKind) (s : State) : (errorExit e s).seq.sh = s.seq.sh := rfl
@[simp] theorem errorExit_pkt (e : ErrorKind) (s : State) : (errorExit e s).seq.pkt = s.seq.pkt := rfl
@[simp] theorem errorExit_params (e : ErrorKind) (s : State) : (errorExit e s).params = s.params := rfl
@[simp] theorem errorExit_inputs (e : ErrorKind) (s : State) : (errorExit e s).inputs = s.inputs := rfl
@[simp] theorem errorExit_edge (e : ErrorKind) (s : State) : (errorExit e s).edge = s.edge := rfl

/-! ### `successCommit` -/

@[simp] theorem successCommit_tx (s : State) : (successCommit s).tx = false := rfl
@[simp] theorem successCommit_done (s : State) : (successCommit s).done = true := rfl
@[simp] theorem successCommit_ovr (s : State) : (successCommit s).ovr = s.ovr := rfl
@[simp] theorem successCommit_ill (s : State) : (successCommit s).ill = s.ill := rfl
@[simp] theorem successCommit_res (s : State) : (successCommit s).res = Results.succeeded s.params s.cfg s.seq.pkt s.res := rfl
@[simp] theorem successCommit_cfg (s : State) : (successCommit s).cfg = s.cfg := rfl
@[simp] theorem successCommit_idleUs (s : State) : (successCommit s).idleUs = 0#24 := rfl
@[simp] theorem successCommit_phase (s : State) : (successCommit s).seq.phase = .idle := rfl
@[simp] theorem successCommit_cnt (s : State) : (successCommit s).seq.cnt = s.seq.cnt := rfl
@[simp] theorem successCommit_pulse (s : State) : (successCommit s).seq.pulse = s.seq.pulse := rfl
@[simp] theorem successCommit_bitn (s : State) : (successCommit s).seq.bitn = s.seq.bitn := rfl
@[simp] theorem successCommit_byten (s : State) : (successCommit s).seq.byten = s.seq.byten := rfl
@[simp] theorem successCommit_first (s : State) : (successCommit s).seq.first = s.seq.first := rfl
@[simp] theorem successCommit_op (s : State) : (successCommit s).seq.op = s.seq.op := rfl
@[simp] theorem successCommit_sh (s : State) : (successCommit s).seq.sh = s.seq.sh := rfl
@[simp] theorem successCommit_pkt (s : State) : (successCommit s).seq.pkt = s.seq.pkt := rfl
@[simp] theorem successCommit_params (s : State) : (successCommit s).params = s.params := rfl
@[simp] theorem successCommit_inputs (s : State) : (successCommit s).inputs = s.inputs := rfl
@[simp] theorem successCommit_edge (s : State) : (successCommit s).edge = s.edge := rfl

/-! ### `levelCommit` -/

@[simp] theorem levelCommit_tx (s : State) : (levelCommit s).tx = s.tx := rfl
@[simp] theorem levelCommit_done (s : State) : (levelCommit s).done = true := rfl
@[simp] theorem levelCommit_ovr (s : State) : (levelCommit s).ovr = s.ovr := rfl
@[simp] theorem levelCommit_ill (s : State) : (levelCommit s).ill = s.ill := rfl
@[simp] theorem levelCommit_cfg (s : State) : (levelCommit s).cfg = s.cfg := rfl
@[simp] theorem levelCommit_idleUs (s : State) : (levelCommit s).idleUs = s.idleUs := rfl
@[simp] theorem levelCommit_phase (s : State) : (levelCommit s).seq.phase = .idle := rfl
@[simp] theorem levelCommit_cnt (s : State) : (levelCommit s).seq.cnt = s.seq.cnt := rfl
@[simp] theorem levelCommit_pulse (s : State) : (levelCommit s).seq.pulse = s.seq.pulse := rfl
@[simp] theorem levelCommit_bitn (s : State) : (levelCommit s).seq.bitn = s.seq.bitn := rfl
@[simp] theorem levelCommit_byten (s : State) : (levelCommit s).seq.byten = s.seq.byten := rfl
@[simp] theorem levelCommit_first (s : State) : (levelCommit s).seq.first = s.seq.first := rfl
@[simp] theorem levelCommit_op (s : State) : (levelCommit s).seq.op = s.seq.op := rfl
@[simp] theorem levelCommit_sh (s : State) : (levelCommit s).seq.sh = s.seq.sh := rfl
@[simp] theorem levelCommit_pkt (s : State) : (levelCommit s).seq.pkt = s.seq.pkt := rfl
@[simp] theorem levelCommit_params (s : State) : (levelCommit s).params = s.params := rfl
@[simp] theorem levelCommit_inputs (s : State) : (levelCommit s).inputs = s.inputs := rfl
@[simp] theorem levelCommit_edge (s : State) : (levelCommit s).edge = s.edge := rfl

/-! ### `volumeCommit` -/

@[simp] theorem volumeCommit_tx (s : State) : (volumeCommit s).tx = s.tx := rfl
@[simp] theorem volumeCommit_done (s : State) : (volumeCommit s).done = true := rfl
@[simp] theorem volumeCommit_ovr (s : State) : (volumeCommit s).ovr = s.ovr := rfl
@[simp] theorem volumeCommit_ill (s : State) : (volumeCommit s).ill = s.ill := rfl
@[simp] theorem volumeCommit_res (s : State) : (volumeCommit s).res = s.res.withVolume s.cfg s.res.levelValid s.res.level.toNat := rfl
@[simp] theorem volumeCommit_cfg (s : State) : (volumeCommit s).cfg = s.cfg := rfl
@[simp] theorem volumeCommit_idleUs (s : State) : (volumeCommit s).idleUs = s.idleUs := rfl
@[simp] theorem volumeCommit_phase (s : State) : (volumeCommit s).seq.phase = .idle := rfl
@[simp] theorem volumeCommit_cnt (s : State) : (volumeCommit s).seq.cnt = s.seq.cnt := rfl
@[simp] theorem volumeCommit_pulse (s : State) : (volumeCommit s).seq.pulse = s.seq.pulse := rfl
@[simp] theorem volumeCommit_bitn (s : State) : (volumeCommit s).seq.bitn = s.seq.bitn := rfl
@[simp] theorem volumeCommit_byten (s : State) : (volumeCommit s).seq.byten = s.seq.byten := rfl
@[simp] theorem volumeCommit_first (s : State) : (volumeCommit s).seq.first = s.seq.first := rfl
@[simp] theorem volumeCommit_op (s : State) : (volumeCommit s).seq.op = s.seq.op := rfl
@[simp] theorem volumeCommit_sh (s : State) : (volumeCommit s).seq.sh = s.seq.sh := rfl
@[simp] theorem volumeCommit_pkt (s : State) : (volumeCommit s).seq.pkt = s.seq.pkt := rfl
@[simp] theorem volumeCommit_params (s : State) : (volumeCommit s).params = s.params := rfl
@[simp] theorem volumeCommit_inputs (s : State) : (volumeCommit s).inputs = s.inputs := rfl
@[simp] theorem volumeCommit_edge (s : State) : (volumeCommit s).edge = s.edge := rfl

/-! ### `resetEdge` -/

@[simp] theorem resetEdge_tx (s : State) : (resetEdge s).tx = false := rfl
@[simp] theorem resetEdge_done (s : State) : (resetEdge s).done = false := rfl
@[simp] theorem resetEdge_ovr (s : State) : (resetEdge s).ovr = false := rfl
@[simp] theorem resetEdge_ill (s : State) : (resetEdge s).ill = false := rfl
@[simp] theorem resetEdge_res (s : State) : (resetEdge s).res = Results.reset := rfl
@[simp] theorem resetEdge_cfg (s : State) : (resetEdge s).cfg = HostRegs.reset := rfl
@[simp] theorem resetEdge_idleUs (s : State) : (resetEdge s).idleUs = 16777215#24 := rfl
@[simp] theorem resetEdge_seq (s : State) : (resetEdge s).seq = Sequencer.reset := rfl
@[simp] theorem resetEdge_params (s : State) : (resetEdge s).params = s.params := rfl
@[simp] theorem resetEdge_inputs (s : State) : (resetEdge s).inputs = s.inputs.tail := rfl
@[simp] theorem resetEdge_edge (s : State) : (resetEdge s).edge = s.edge + 1 := rfl

end Sys2Proof.Machine
end

