-- ==== Sys2Proof/Laws/Ops.lean ====
section
/-! SUPPORT. One lemma per shared operation that says what it does, so that a proof cites it and does not unfold the
operation. -/

namespace Sys2Proof.Machine

/-! ### Outcomes -/

@[simp] theorem mapNext_next (f : State → State) (s : State) : mapNext f (.next s) = .next (f s) := rfl

@[simp] theorem mapNext_fault (f : State → State) (r : Fault) : mapNext f (.fault r) = .fault r := rfl

@[simp] theorem mapNext_refused (f : State → State) (r : Refusal) : mapNext f (.refused r) = .refused r := rfl

theorem mapNext_eq_next {f : State → State} {o : Host.Outcome State Fault Refusal} {t : State}
    (h : mapNext f o = .next t) : ∃ u, o = .next u ∧ t = f u := by
  cases o with
  | next u => exact ⟨u, rfl, by simpa using h.symm⟩
  | fault r => simp at h
  | refused r => simp at h

/-! ### Results -/

@[simp] theorem withVolume_volume (r : Results) (c : HostRegs) (lv : Bool) (l : Nat) :
    (r.withVolume c lv l).volume = BitVec.ofInt 32 (estimateVolume lv l (calPoints c) c.invert).2 := rfl

@[simp] theorem withVolume_volValid (r : Results) (c : HostRegs) (lv : Bool) (l : Nat) :
    (r.withVolume c lv l).volValid = (estimateVolume lv l (calPoints c) c.invert).1 := rfl

/-- A new volume leaves every other result. -/
theorem withVolume_frame (r : Results) (c : HostRegs) (lv : Bool) (l : Nat) :
    r.withVolume c lv l =
      { r with volume := (r.withVolume c lv l).volume, volValid := (r.withVolume c lv l).volValid } := rfl

@[simp] theorem withLevel_level (r : Results) (c : HostRegs) (lv : Bool) (l : Nat) :
    (r.withLevel c lv l).level = BitVec.ofNat 16 l := rfl

@[simp] theorem withLevel_levelValid (r : Results) (c : HostRegs) (lv : Bool) (l : Nat) :
    (r.withLevel c lv l).levelValid = lv := rfl

@[simp] theorem withLevel_volume (r : Results) (c : HostRegs) (lv : Bool) (l : Nat) :
    (r.withLevel c lv l).volume = BitVec.ofInt 32 (estimateVolume lv l (calPoints c) c.invert).2 := rfl

@[simp] theorem withLevel_volValid (r : Results) (c : HostRegs) (lv : Bool) (l : Nat) :
    (r.withLevel c lv l).volValid = (estimateVolume lv l (calPoints c) c.invert).1 := rfl

@[simp] theorem withLevel_seg (r : Results) (c : HostRegs) (lv : Bool) (l : Nat) :
    (r.withLevel c lv l).seg = r.seg := rfl

@[simp] theorem withLevel_segValid (r : Results) (c : HostRegs) (lv : Bool) (l : Nat) :
    (r.withLevel c lv l).segValid = r.segValid := rfl

@[simp] theorem withLevel_csExp (r : Results) (c : HostRegs) (lv : Bool) (l : Nat) :
    (r.withLevel c lv l).csExp = r.csExp := rfl

@[simp] theorem withLevel_csAct (r : Results) (c : HostRegs) (lv : Bool) (l : Nat) :
    (r.withLevel c lv l).csAct = r.csAct := rfl

@[simp] theorem withLevel_csv (r : Results) (c : HostRegs) (lv : Bool) (l : Nat) :
    (r.withLevel c lv l).csv = r.csv := rfl

@[simp] theorem withLevel_err (r : Results) (c : HostRegs) (lv : Bool) (l : Nat) :
    (r.withLevel c lv l).err = r.err := rfl

/-- The error exit of every error but ChecksumMismatch zeroes the checksum pair. -/
theorem errorExit_res_of_ne {e : ErrorKind} (h : e ≠ .checksumMismatch) (s : State) :
    (errorExit e s).res = Results.failed e 0#12 0#16 false := by
  cases e <;> first | rfl | exact absurd rfl h

/-- The error exit of ChecksumMismatch keeps the checksum pair. -/
@[simp] theorem errorExit_res_checksumMismatch (s : State) :
    (errorExit .checksumMismatch s).res =
      Results.failed .checksumMismatch (checksumField s.seq.pkt) (payloadSum s.seq.pkt) true := rfl

/-- LEVEL with a stored reading. -/
theorem levelCommit_res_of_reading {s : State} (h : s.res.segValid = true) :
    (levelCommit s).res = s.res.withLevel s.cfg true (estimateLevel s.params s.res.seg s.cfg.segcnt.val) := by
  simp [levelCommit, h]

/-- LEVEL without a stored reading: NoLevel. -/
theorem levelCommit_res_of_no_reading {s : State} (h : s.res.segValid = false) :
    (levelCommit s).res = s.res.withLevel s.cfg false 0 := by
  simp [levelCommit, h]

/-! ### Bits and bytes -/

/-- The header as a number: byte 0 is the high byte. -/
theorem headerWord_toNat (pkt : Vector Byte 12) : (headerWord pkt).toNat = pkt[0].toNat * 256 + pkt[1].toNat := by
  have h : (pkt[0] ++ pkt[1]).toNat = pkt[0].toNat <<< 8 ||| pkt[1].toNat := BitVec.toNat_append ..
  have hlt : pkt[1].toNat < 2 ^ 8 := pkt[1].isLt
  rw [Nat.shiftLeft_eq, Nat.mul_comm, ← Nat.two_pow_add_eq_or_of_lt hlt] at h
  rw [Nat.mul_comm]
  exact h

/-- One more bit as a number. -/
theorem shiftIn_toNat (sh : Byte) (b : Bool) : (shiftIn sh b).toNat = (2 * sh.toNat + b.toNat) % 256 := by
  cases b <;> revert sh <;> decide

/-! ### Shift -/

/-- A bit that is not the eighth of its byte. -/
theorem shiftBit_within_byte {s : State} (b : Bool) (h : s.seq.bitn ≠ 7#3) :
    shiftBit b s =
      enterPhase .waitHigh s.tx 0#16
        { s with seq.sh := shiftIn s.seq.sh b, seq.bitn := s.seq.bitn + 1#3 } := by
  simp [shiftBit, h]

/-- The eighth bit of a byte that is not the last. -/
theorem shiftBit_ends_byte {s : State} (b : Bool) (h : s.seq.bitn = 7#3) (h' : s.seq.byten ≠ 11) :
    shiftBit b s =
      enterPhase .waitHigh s.tx 0#16
        { s with
          seq.sh := shiftIn s.seq.sh b
          seq.bitn := 0#3
          seq.pkt := s.seq.pkt.set s.seq.byten.val (shiftIn s.seq.sh b) s.seq.byten.isLt
          seq.byten := s.seq.byten + 1 } := by
  simp [shiftBit, h, h']

/-- The 96th bit. -/
theorem shiftBit_ends_packet {s : State} (b : Bool) (h : s.seq.bitn = 7#3) (h' : s.seq.byten = 11) :
    shiftBit b s =
      enterPhase .calc false 0#16
        { s with
          seq.sh := shiftIn s.seq.sh b
          seq.bitn := 0#3
          seq.pkt := s.seq.pkt.set s.seq.byten.val (shiftIn s.seq.sh b) s.seq.byten.isLt
          seq.byten := 0 } := by
  simp [shiftBit, h, h']

/-! ### The phases -/

@[simp] theorem precheckPhase_low (s : State) : precheckPhase false s = errorExit .interfaceFault s := rfl

@[simp] theorem precheckPhase_high (s : State) : precheckPhase true s = enterPhase .charge true 0#16 s := rfl

theorem chargePhase_counts {s : State} (rx : Bool) (h : s.seq.cnt.toNat ≠ s.params.tCharge - 1) :
    chargePhase rx s = countTick s := by
  simp [chargePhase, h]

theorem chargePhase_short {s : State} (h : s.seq.cnt.toNat = s.params.tCharge - 1) :
    chargePhase false s = errorExit .shortCircuit s := by
  simp [chargePhase, h]

theorem chargePhase_listens {s : State} (h : s.seq.cnt.toNat = s.params.tCharge - 1) (ha : s.cfg.addr = 0#4) :
    chargePhase true s = startListening s := by
  simp [chargePhase, h, ha]

theorem chargePhase_addresses {s : State} (h : s.seq.cnt.toNat = s.params.tCharge - 1) (ha : s.cfg.addr ≠ 0#4) :
    chargePhase true s = enterPhase .addrLow false 0#16 { s with seq.pulse := s.cfg.addr } := by
  simp [chargePhase, h, ha]

theorem addrLowPhase_counts {s : State} (h : s.seq.cnt.toNat ≠ s.params.tAddrLow - 1) :
    addrLowPhase s = countTick s := by
  simp [addrLowPhase, h]

theorem addrLowPhase_ends {s : State} (h : s.seq.cnt.toNat = s.params.tAddrLow - 1) :
    addrLowPhase s = enterPhase .addrHigh true 0#16 s := by
  simp [addrLowPhase, h]

theorem addrHighPhase_counts {s : State} (h : s.seq.cnt.toNat ≠ s.params.tAddrHigh - 1) :
    addrHighPhase s = countTick s := by
  simp [addrHighPhase, h]

theorem addrHighPhase_listens {s : State} (h : s.seq.cnt.toNat = s.params.tAddrHigh - 1) (hp : s.seq.pulse = 1#4) :
    addrHighPhase s = startListening { s with seq.pulse := 0#4 } := by
  simp [addrHighPhase, h, hp]

theorem addrHighPhase_repeats {s : State} (h : s.seq.cnt.toNat = s.params.tAddrHigh - 1) (hp : s.seq.pulse ≠ 1#4) :
    addrHighPhase s = enterPhase .addrLow false 0#16 { s with seq.pulse := s.seq.pulse - 1#4 } := by
  simp [addrHighPhase, h, hp]

@[simp] theorem waitHighPhase_high (s : State) :
    waitHighPhase true s = { s with seq.first := false, seq.cnt := 1#16, seq.phase := .measHigh } := rfl

theorem waitHighPhase_counts {s : State} (h : s.seq.cnt.toNat ≠ waitLimit s) : waitHighPhase false s = countTick s := by
  simp [waitHighPhase, h]

theorem waitHighPhase_noResponse {s : State} (h : s.seq.cnt.toNat = waitLimit s) (hf : s.seq.first = true) :
    waitHighPhase false s = errorExit .noResponse s := by
  simp [waitHighPhase, h, hf]

theorem waitHighPhase_timeout {s : State} (h : s.seq.cnt.toNat = waitLimit s) (hf : s.seq.first = false) :
    waitHighPhase false s = errorExit .timeout s := by
  simp [waitHighPhase, h, hf]

@[simp] theorem measHighPhase_low (s : State) :
    measHighPhase false s = shiftBit (decide (Config.tThresh < s.seq.cnt.toNat)) s := rfl

theorem measHighPhase_counts {s : State} (h : s.seq.cnt.toNat ≠ s.params.tBit) : measHighPhase true s = countTick s := by
  simp [measHighPhase, h]

theorem measHighPhase_timeout {s : State} (h : s.seq.cnt.toNat = s.params.tBit) :
    measHighPhase true s = errorExit .timeout s := by
  simp [measHighPhase, h]

theorem readCommit_matching {s : State} (h : checksumMatches s.seq.pkt = true) : readCommit s = successCommit s := by
  simp [readCommit, h]

theorem readCommit_mismatching {s : State} (h : checksumMatches s.seq.pkt = false) :
    readCommit s = errorExit .checksumMismatch s := by
  simp [readCommit, h]

theorem calcPhase_counts {s : State} (h : s.seq.cnt.toNat ≠ s.params.tCalc - 1) : calcPhase s = .next (countTick s) := by
  simp [calcPhase, h]

theorem calcPhase_read {s : State} (h : s.seq.cnt.toNat = s.params.tCalc - 1) (ho : s.seq.op = .read) :
    calcPhase s = .next (readCommit s) := by
  simp [calcPhase, h, ho]

theorem calcPhase_level {s : State} (h : s.seq.cnt.toNat = s.params.tCalc - 1) (ho : s.seq.op = .level) :
    calcPhase s = .next (levelCommit s) := by
  simp [calcPhase, h, ho]

theorem calcPhase_volume {s : State} (h : s.seq.cnt.toNat = s.params.tCalc - 1) (ho : s.seq.op = .volume) :
    calcPhase s = .next (volumeCommit s) := by
  simp [calcPhase, h, ho]

/-- If CALC answers a next state, it counted or it committed for the command in flight. -/
theorem calcPhase_next {s t : State} (h : calcPhase s = .next t) :
    (s.seq.cnt.toNat ≠ s.params.tCalc - 1 ∧ t = countTick s) ∨
    (s.seq.cnt.toNat = s.params.tCalc - 1 ∧
      ((s.seq.op = .read ∧ checksumMatches s.seq.pkt = true ∧ t = successCommit s) ∨
       (s.seq.op = .read ∧ checksumMatches s.seq.pkt = false ∧ t = errorExit .checksumMismatch s) ∨
       (s.seq.op = .level ∧ t = levelCommit s) ∨
       (s.seq.op = .volume ∧ t = volumeCommit s))) := by
  unfold calcPhase at h
  split at h
  · rename_i hc
    refine .inr ⟨hc, ?_⟩
    split at h
    · rename_i ho
      cases hm : checksumMatches s.seq.pkt with
      | true => exact .inl ⟨ho, rfl, by simpa [readCommit, hm] using h.symm⟩
      | false => exact .inr (.inl ⟨ho, rfl, by simpa [readCommit, hm] using h.symm⟩)
    · rename_i ho
      exact .inr (.inr (.inl ⟨ho, by simpa using h.symm⟩))
    · rename_i ho
      exact .inr (.inr (.inr ⟨ho, by simpa using h.symm⟩))
    · simp at h
  · rename_i hc
    exact .inl ⟨hc, by simpa using h.symm⟩

/-! ### Every edge -/

@[simp] theorem pacingNext_toNat (x : BitVec 24) : (pacingNext x).toNat = min (x.toNat + 1) 16777215 := by
  simp [pacingNext, Config.idleMax]

/-- A dropped write sets `OVR` and touches nothing else. -/
theorem droppedWrite_eq (i : Inputs) (s : State) :
    droppedWrite i s = { s with ovr := s.ovr || (i.sel && i.we) } := by
  unfold droppedWrite
  split
  · rename_i h
    simp [h.1, h.2]
  · rename_i h
    cases hs : i.sel <;> cases hw : i.we <;> simp_all

/-- A register write touches the host's registers and nothing else. -/
theorem writeReg_eq (s : State) (r : HostReg) (w : Word) : writeReg s r w = { s with cfg := s.cfg.write w r } := rfl

end Sys2Proof.Machine
end

