-- ==== Sys2Proof/Laws/PerInstr.lean ====
section
/-! SUPPORT. The statements made of every command as syntax, one lemma per constructor of `Instr`. -/

namespace Sys2Proof.Laws

/-- The word software writes for the command holds the command's code in bits 3:0 and 0 in bits 31:4, the decoder reads
the command back from it, and the command is well formed (spec/30_encoding.md R70). -/
def encodedWord.Statement (i : Instr) : Prop :=
  opcField (encode i) = opcOf i ∧ (encode i).extractLsb' 4 28 = 0#28 ∧ decode (encode i) = .ok i ∧ i.wellFormed = true

theorem encodedWord.nop : encodedWord.Statement .nop := by unfold encodedWord.Statement; decide

theorem encodedWord.read : encodedWord.Statement .read := by unfold encodedWord.Statement; decide

theorem encodedWord.level : encodedWord.Statement .level := by unfold encodedWord.Statement; decide

theorem encodedWord.volume : encodedWord.Statement .volume := by unfold encodedWord.Statement; decide

theorem encodedWord.clear : encodedWord.Statement .clear := by unfold encodedWord.Statement; decide

end Sys2Proof.Laws
end

