-- ==== Sys2Proof/Laws/Step.lean ====
section
/-! SUPPORT. What a step can do, said once: the inversion lemmas of `step`, of the edges it is made of and of `exec`; what
every step does to the queue of inputs; how runs compose. -/

namespace Sys2Proof.Machine

/-! ### The commands -/

/-- If `exec` answers a next state, it is one of these. -/
theorem exec_next {i : Instr} {s t : State} (h : exec i s = .next t) :
    (i = .nop ∧ t = s) ∨
    (i = .read ∧ s.idleUs.toNat < s.cfg.minPause.toNat ∧ t = rateLimitedExit s) ∨
    (i = .read ∧ s.cfg.minPause.toNat ≤ s.idleUs.toNat ∧ t = startAttempt s) ∨
    (i = .level ∧ t = startCalc .level s) ∨ (i = .volume ∧ t = startCalc .volume s) ∨
    (i = .clear ∧ t = { s with done := false, ovr := false, ill := false }) := by
  cases i with
  | nop => exact .inl ⟨rfl, by simpa [exec, execNop] using h.symm⟩
  | read =>
    simp only [exec, execRead] at h
    split at h
    · rename_i hp
      exact .inr (.inl ⟨rfl, hp, by simpa using h.symm⟩)
    · rename_i hp
      exact .inr (.inr (.inl ⟨rfl, by omega, by simpa using h.symm⟩))
  | level => exact .inr (.inr (.inr (.inl ⟨rfl, by simpa [exec, execLevel] using h.symm⟩)))
  | volume => exact .inr (.inr (.inr (.inr (.inl ⟨rfl, by simpa [exec, execVolume] using h.symm⟩))))
  | clear => exact .inr (.inr (.inr (.inr (.inr ⟨rfl, by simpa [exec, execClear] using h.symm⟩))))

/-- Every command answers a next state. -/
theorem exec_isNext (i : Instr) (s : State) : ∃ t, exec i s = .next t := by
  cases i with
  | nop => exact ⟨_, rfl⟩
  | read =>
    by_cases h : s.idleUs.toNat < s.cfg.minPause.toNat
    · exact ⟨_, by simp [exec, execRead, h]; rfl⟩
    · exact ⟨_, by simp [exec, execRead, h]; rfl⟩
  | level => exact ⟨_, rfl⟩
  | volume => exact ⟨_, rfl⟩
  | clear => exact ⟨_, rfl⟩

/-- A word written to `CMD` runs its command, or sets `ILL`. -/
theorem command_next {w : Word} {s t : State} (h : command w s = .next t) :
    (∃ i, decode w = .ok i ∧ exec i s = .next t) ∨ (∃ e, decode w = .error e ∧ t = { s with ill := true }) := by
  unfold command at h
  split at h
  · rename_i i hd
    exact .inl ⟨i, hd, h⟩
  · rename_i e hd
    exact .inr ⟨e, hd, by simpa using h.symm⟩

/-- A word written to `CMD` always answers a next state. -/
theorem command_isNext (w : Word) (s : State) : ∃ t, command w s = .next t := by
  unfold command
  split
  · exact exec_isNext _ _
  · exact ⟨_, rfl⟩

/-- Only address 0 is `CMD`. -/
theorem hostReg_eq_cmd {a : BusAddr} : hostReg a = .cmd ↔ a = 0#6 := by
  revert a
  decide

/-- A bus write at an idle edge is a command or a register write. -/
theorem idleWrite_next {a : BusAddr} {w : Word} {s t : State} (h : idleWrite a w s = .next t) :
    (a = 0#6 ∧ command w s = .next t) ∨ (a ≠ 0#6 ∧ t = writeReg s (hostReg a) w) := by
  unfold idleWrite at h
  split at h
  · rename_i hr
    exact .inl ⟨hostReg_eq_cmd.mp hr, h⟩
  · rename_i hr
    exact .inr ⟨fun ha => hr (hostReg_eq_cmd.mpr ha), by simpa using h.symm⟩

theorem idleWrite_isNext (a : BusAddr) (w : Word) (s : State) : ∃ t, idleWrite a w s = .next t := by
  unfold idleWrite
  split
  · exact command_isNext _ _
  · exact ⟨_, rfl⟩

/-! ### The edges -/

/-- An idle edge performs the write, if there is one, and then what every edge does. -/
theorem idleEdge_next {i : Inputs} {s t : State} (h : idleEdge i s = .next t) :
    (i.isWrite = false ∧ t = advance s) ∨
    (i.isWrite = true ∧ ∃ u, idleWrite i.addr i.wdata s = .next u ∧ t = advance u) := by
  obtain ⟨u, hu, rfl⟩ := mapNext_eq_next h
  split at hu
  · rename_i hw
    exact .inr ⟨by simp [Inputs.isWrite, hw.1, hw.2], u, hu, rfl⟩
  · rename_i hw
    refine .inl ⟨?_, by simpa using congrArg (mapNext advance) hu.symm⟩
    cases hs : i.sel <;> cases hwe : i.we <;> simp_all [Inputs.isWrite]

theorem idleEdge_isNext (i : Inputs) (s : State) : ∃ t, idleEdge i s = .next t := by
  unfold idleEdge
  split
  · obtain ⟨u, hu⟩ := idleWrite_isNext i.addr i.wdata s
    exact ⟨advance u, by rw [hu, mapNext_next]⟩
  · exact ⟨_, rfl⟩

/-- The state the sequencer rule of a busy edge sees. -/
theorem advance_droppedWrite (s : State) : advance (droppedWrite (nextInputs s) s) = edgeBase s := by
  rw [droppedWrite_eq]
  rfl

/-- A step of a machine that answers a next state: the parameters are legal, and the edge was a reset, an idle edge or a
busy edge. -/
theorem step_next {s t : State} (h : step s = .next t) :
    s.params.legal = true ∧
    (((nextInputs s).rst = true ∧ t = resetEdge s) ∨
     ((nextInputs s).rst = false ∧ s.seq.phase = .idle ∧ idleEdge (nextInputs s) s = .next t) ∨
     ((nextInputs s).rst = false ∧ s.seq.phase ≠ .idle ∧ sequencer (nextInputs s).rx (edgeBase s) = .next t)) := by
  unfold step edgeStep at h
  split at h
  · rename_i hl
    refine ⟨hl, ?_⟩
    unfold clockEdge at h
    split at h
    · rename_i hr
      exact .inl ⟨hr, by simpa using h.symm⟩
    · rename_i hr
      have hr' : (nextInputs s).rst = false := by simpa using hr
      split at h
      · rename_i hp
        exact .inr (.inl ⟨hr', hp, h⟩)
      · rename_i hp
        refine .inr (.inr ⟨hr', hp, ?_⟩)
        rw [← advance_droppedWrite]
        exact h
  · simp at h

/-- A step at an edge with reset. -/
theorem step_of_reset {s : State} (hl : s.params.legal = true) (hr : (nextInputs s).rst = true) :
    step s = .next (resetEdge s) := by
  simp [step, edgeStep, clockEdge, hl, hr]

/-- A step of an idle block. -/
theorem step_of_idle {s : State} (hl : s.params.legal = true) (hr : (nextInputs s).rst = false)
    (hp : s.seq.phase = .idle) : step s = idleEdge (nextInputs s) s := by
  simp [step, edgeStep, clockEdge, hl, hr, hp]

/-- A step of a busy block: the sequencer rule on `edgeBase`. -/
theorem step_of_busy {s : State} (hl : s.params.legal = true) (hr : (nextInputs s).rst = false)
    (hp : s.seq.phase ≠ .idle) : step s = sequencer (nextInputs s).rx (edgeBase s) := by
  rw [← advance_droppedWrite]
  simp [step, edgeStep, clockEdge, hl, hr, hp, busyEdge]

/-- If the sequencer answers a next state, it is that of the rule of the phase. -/
theorem sequencer_next {rx : Bool} {s t : State} (h : sequencer rx s = .next t) :
    (s.seq.phase = .idle ∧ t = s) ∨ (s.seq.phase = .precheck ∧ t = precheckPhase rx s) ∨
    (s.seq.phase = .charge ∧ t = chargePhase rx s) ∨ (s.seq.phase = .addrLow ∧ t = addrLowPhase s) ∨
    (s.seq.phase = .addrHigh ∧ t = addrHighPhase s) ∨ (s.seq.phase = .waitHigh ∧ t = waitHighPhase rx s) ∨
    (s.seq.phase = .measHigh ∧ t = measHighPhase rx s) ∨ (s.seq.phase = .calc ∧ calcPhase s = .next t) := by
  unfold sequencer at h
  split at h <;> rename_i hp <;> simp [hp] <;> first | exact h | simpa using h.symm

/-! ### The inputs of the coming edges -/

theorem nextInputs_eq_inputAt (s : State) : nextInputs s = inputAt s 0 := by
  unfold nextInputs inputAt
  cases s.inputs <;> rfl

/-- Where the queue has moved on by one edge, the inputs of the coming edges have too. -/
theorem inputAt_of_moved {s t : State} (hi : t.inputs = s.inputs.tail) (he : t.edge = s.edge + 1) (k : Nat) :
    inputAt t k = inputAt s (k + 1) := by
  unfold inputAt
  rw [hi, he, Nat.add_right_comm, Nat.add_assoc]
  cases s.inputs <;> simp

/-- A sequencer rule writes neither the queue nor the edge number. -/
theorem sequencer_keeps_inputs {rx : Bool} {s t : State} (h : sequencer rx s = .next t) :
    t.inputs = s.inputs ∧ t.edge = s.edge := by
  have shift : ∀ b, (shiftBit b s).inputs = s.inputs ∧ (shiftBit b s).edge = s.edge := by
    intro b
    unfold shiftBit
    dsimp only
    split
    · split <;> exact ⟨rfl, rfl⟩
    · exact ⟨rfl, rfl⟩
  rcases sequencer_next h with ⟨-, rfl⟩ | ⟨-, rfl⟩ | ⟨-, rfl⟩ | ⟨-, rfl⟩ | ⟨-, rfl⟩ | ⟨-, rfl⟩ | ⟨-, rfl⟩ | ⟨-, h⟩
  · exact ⟨rfl, rfl⟩
  · unfold precheckPhase; split <;> exact ⟨rfl, rfl⟩
  · unfold chargePhase; repeat' split
    all_goals exact ⟨rfl, rfl⟩
  · unfold addrLowPhase; split <;> exact ⟨rfl, rfl⟩
  · unfold addrHighPhase; repeat' split
    all_goals exact ⟨rfl, rfl⟩
  · unfold waitHighPhase; repeat' split
    all_goals exact ⟨rfl, rfl⟩
  · unfold measHighPhase; repeat' split
    · exact shift _
    · exact ⟨rfl, rfl⟩
    · exact ⟨rfl, rfl⟩
  · rcases calcPhase_next h with ⟨-, rfl⟩ | ⟨-, ⟨-, -, rfl⟩ | ⟨-, -, rfl⟩ | ⟨-, rfl⟩ | ⟨-, rfl⟩⟩ <;> exact ⟨rfl, rfl⟩

/-- An idle edge moves the queue on by one edge. -/
theorem idleEdge_moves_inputs {i : Inputs} {s t : State} (h : idleEdge i s = .next t) :
    t.inputs = s.inputs.tail ∧ t.edge = s.edge + 1 := by
  rcases idleEdge_next h with ⟨-, rfl⟩ | ⟨-, u, hu, rfl⟩
  · exact ⟨rfl, rfl⟩
  · rcases idleWrite_next hu with ⟨-, hc⟩ | ⟨-, rfl⟩
    · rcases command_next hc with ⟨c, -, hx⟩ | ⟨e, -, rfl⟩
      · rcases exec_next hx with ⟨-, rfl⟩ | ⟨-, -, rfl⟩ | ⟨-, -, rfl⟩ | ⟨-, rfl⟩ | ⟨-, rfl⟩ | ⟨-, rfl⟩ <;>
          exact ⟨rfl, rfl⟩
      · exact ⟨rfl, rfl⟩
    · exact ⟨rfl, rfl⟩

/-- Every step moves the queue on by one edge. -/
theorem step_moves_inputs {s t : State} (h : step s = .next t) :
    t.inputs = s.inputs.tail ∧ t.edge = s.edge + 1 := by
  rcases step_next h with ⟨-, ⟨-, rfl⟩ | ⟨-, -, h⟩ | ⟨-, -, h⟩⟩
  · exact ⟨rfl, rfl⟩
  · exact idleEdge_moves_inputs h
  · exact sequencer_keeps_inputs h

/-- After a step, the inputs of the coming edges are those of the edges after the next. -/
theorem inputAt_of_step {s t : State} (h : step s = .next t) (k : Nat) : inputAt t k = inputAt s (k + 1) :=
  inputAt_of_moved (step_moves_inputs h).1 (step_moves_inputs h).2 k

/-! ### Runs -/

@[simp] theorem run_zero (s : State) : run 0 s = .next s := rfl

theorem run_succ_of_step {s t : State} (h : step s = .next t) (n : Nat) : run (n + 1) s = run n t := by
  simp [run, h]

/-- Runs compose. -/
theorem run_add {m : Nat} {s t : State} (h : run m s = .next t) (n : Nat) : run (m + n) s = run n t := by
  induction m generalizing s with
  | zero =>
    have : s = t := by simpa using h
    simp [this]
  | succ m ih =>
    unfold run at h
    split at h
    · rename_i u hu
      rw [Nat.add_right_comm, run_succ_of_step hu]
      exact ih h
    · simp at h
    · simp at h

/-- After a run of `m` steps, the inputs of the coming edges are those from the `m`-th on. -/
theorem inputAt_of_run {m : Nat} {s t : State} (h : run m s = .next t) (k : Nat) : inputAt t k = inputAt s (m + k) := by
  induction m generalizing s with
  | zero =>
    have : s = t := by simpa using h
    simp [this]
  | succ m ih =>
    unfold run at h
    split at h
    · rename_i u hu
      rw [ih h, inputAt_of_step hu]
      congr 1
      omega
    · simp at h
    · simp at h

end Sys2Proof.Machine
end

