-- ==== Sys2Proof/Tests/Slice0.lean ====
section
/-! SUPPORT. Tests whose expected results come from spec/30_encoding.md and spec/95_test_vectors.md (the vector is named
beside each), the smoke test of the parameter check, and for each statement with hypotheses a state that meets them. -/

namespace Sys2Proof.Tests

open Sys2Proof.Machine

/-! ### Helpers -/

/-- An edge without a bus access. -/
def quiet (rx : Bool) : Inputs := { rx := rx, rst := false, sel := false, we := false, addr := 0#6, wdata := 0#32 }

/-- An edge with a bus write. -/
def write (a : BusAddr) (w : Word) : Inputs :=
  { rx := false, rst := false, sel := true, we := true, addr := a, wdata := w }

/-- An edge with a bus read. -/
def read (a : BusAddr) : Inputs := { rx := false, rst := false, sel := true, we := false, addr := a, wdata := 0#32 }

/-- The reset state with one queued edge. -/
def idleAt (i : Inputs) : State := { State.reset with inputs := [i] }

/-- A busy state with a READ in flight and one queued edge. -/
def busyAt (p : Phase) (cnt : BitVec 16) (i : Inputs) : State :=
  { State.reset with inputs := [i], seq := { Sequencer.reset with phase := p, cnt := cnt, op := .read } }

/-- A predicate on the next state. -/
def holdsNext (o : Host.Outcome State Fault Refusal) (f : State → Bool) : Bool :=
  match o with
  | .next t => f t
  | .fault _ => false
  | .refused _ => false

/-! ### Decoding: words written out bit by bit from spec/30_encoding.md R70 -/

theorem test_decode_nop : decode 0b00000000000000000000000000000000#32 = .ok .nop := by decide

theorem test_decode_read : decode 0b00000000000000000000000000000001#32 = .ok .read := by decide

theorem test_decode_level : decode 0b00000000000000000000000000000010#32 = .ok .level := by decide

theorem test_decode_volume : decode 0b00000000000000000000000000000011#32 = .ok .volume := by decide

theorem test_decode_clear : decode 0b00000000000000000000000000000100#32 = .ok .clear := by decide

/-- Vector B13 and the other commands with every ignored bit set. -/
theorem test_decode_ignores_bits_31_4 :
    decode 0b11111111111111111111111111110000#32 = .ok .nop ∧ decode 0b11111111111111111111111111110001#32 = .ok .read
    ∧ decode 0b11111111111111111111111111110010#32 = .ok .level
    ∧ decode 0b11111111111111111111111111110011#32 = .ok .volume
    ∧ decode 0b11111111111111111111111111110100#32 = .ok .clear := by decide

/-- R71: the eleven reserved codes. -/
theorem test_decode_rejects_reserved :
    ∀ k : Fin 16, 5 ≤ k.val →
      decode (BitVec.ofNat 32 k.val) = .error (.reservedCode (BitVec.ofNat 4 k.val)) := by decide

theorem test_decodeTableWord :
    decodeTableWord 8 0 = some .nop ∧ decodeTableWord 8 1 = some .read ∧ decodeTableWord 32 2 = some .level
    ∧ decodeTableWord 8 3 = some .volume ∧ decodeTableWord 32 0xFFFFFFF4 = some .clear
    ∧ decodeTableWord 8 5 = none := by decide

/-! ### The parameter check: for each range the two ends pass, the values next to them do not (spec/00_scope.md R6, R7) -/

theorem test_legal_tCharge :
    { Config.reference with tCharge := 1500 }.legal = true ∧ { Config.reference with tCharge := 3000 }.legal = true
    ∧ { Config.reference with tCharge := 1499 }.legal = false
    ∧ { Config.reference with tCharge := 3001 }.legal = false := by decide

theorem test_legal_tAddrLow :
    { Config.reference with tAddrLow := 1 }.legal = true ∧ { Config.reference with tAddrLow := 65535 }.legal = true
    ∧ { Config.reference with tAddrLow := 0 }.legal = false
    ∧ { Config.reference with tAddrLow := 65536 }.legal = false := by decide

theorem test_legal_tAddrHigh :
    { Config.reference with tAddrHigh := 1 }.legal = true ∧ { Config.reference with tAddrHigh := 65535 }.legal = true
    ∧ { Config.reference with tAddrHigh := 0 }.legal = false
    ∧ { Config.reference with tAddrHigh := 65536 }.legal = false := by decide

theorem test_legal_tFirst :
    { Config.reference with tFirst := 14000 }.legal = true ∧ { Config.reference with tFirst := 20000 }.legal = true
    ∧ { Config.reference with tFirst := 13999 }.legal = false
    ∧ { Config.reference with tFirst := 20001 }.legal = false := by decide

theorem test_legal_tBit :
    { Config.reference with tBit := 27 }.legal = true ∧ { Config.reference with tBit := 65535 }.legal = true
    ∧ { Config.reference with tBit := 26 }.legal = false
    ∧ { Config.reference with tBit := 65536 }.legal = false := by decide

theorem test_legal_tCalc :
    { Config.reference with tCalc := 1 }.legal = true ∧ { Config.reference with tCalc := 65535 }.legal = true
    ∧ { Config.reference with tCalc := 0 }.legal = false
    ∧ { Config.reference with tCalc := 65536 }.legal = false := by decide

theorem test_legal_noiseFloor :
    { Config.reference with noiseFloor := 1 }.legal = true ∧ { Config.reference with noiseFloor := 255 }.legal = true
    ∧ { Config.reference with noiseFloor := 0 }.legal = false
    ∧ { Config.reference with noiseFloor := 256 }.legal = false := by decide

theorem test_legal_baseline :
    { Config.reference with baseline := 1 }.legal = true ∧ { Config.reference with baseline := 255 }.legal = true
    ∧ { Config.reference with baseline := 0 }.legal = false
    ∧ { Config.reference with baseline := 256 }.legal = false := by decide

theorem test_legal_dampQ8 :
    { Config.reference with dampQ8 := 1 }.legal = true ∧ { Config.reference with dampQ8 := 255 }.legal = true
    ∧ { Config.reference with dampQ8 := 0 }.legal = false
    ∧ { Config.reference with dampQ8 := 256 }.legal = false := by decide

theorem test_legal_capTop :
    { Config.reference with capTop := 4096 }.legal = true ∧ { Config.reference with capTop := 8191 }.legal = true
    ∧ { Config.reference with capTop := 4095 }.legal = false
    ∧ { Config.reference with capTop := 8192 }.legal = false := by decide

theorem test_wellFormed_commands : ∀ i ∈ [Instr.nop, .read, .level, .volume, .clear], i.wellFormed = true := by decide

theorem test_step_refuses_illegal_parameters :
    step { idleAt (write 0#6 0#32) with params := { Config.reference with tBit := 26 } } = .refused .illegalParameters :=
  rfl

/-! ### The commands as the first instruction after reset -/

/-- Vector B13: STATUS stays 0. -/
theorem test_step_nop : holdsNext (step (State.reset.withFetchWord 8 0)) (fun t => busRead t 1#6 == 0#32) = true := by decide

/-- Vector X1, the READ at 1003: accepted after reset, STATUS is BUSY. -/
theorem test_step_read : holdsNext (step (State.reset.withFetchWord 8 1)) (fun t => busRead t 1#6 == 1#32) = true := by decide

/-- Vector O6: a READ one tick after an attempt ended with ERR 4 is RateLimited; STATUS is 0x602 with OVR clear. -/
theorem test_step_read_rate_limited :
    holdsNext (step ({ State.reset with idleUs := 0#24, res.err := 4#3, done := true }.withFetchWord 8 1))
      (fun t => busRead t 1#6 == 0x602#32 && !t.tx) = true := by decide

/-- Vector B17: BUSY, then DONE with nothing valid. -/
theorem test_run_level :
    holdsNext (run 1 (State.reset.withFetchWord 8 2)) (fun t => busRead t 1#6 == 1#32) = true
    ∧ holdsNext (run 2 { State.reset with inputs := [write 0#6 2#32, quiet false] }) (fun t => busRead t 1#6 == 2#32) = true := by
  decide

/-- VOLUME after reset: BUSY, then DONE with nothing valid (R179). -/
theorem test_run_volume :
    holdsNext (run 1 (State.reset.withFetchWord 8 3)) (fun t => busRead t 1#6 == 1#32) = true
    ∧ holdsNext (run 2 { State.reset with inputs := [write 0#6 3#32, quiet false] }) (fun t => busRead t 1#6 == 2#32) = true := by
  decide

/-- Program P4: CLEAR turns STATUS 0xFE into 0x9C. -/
theorem test_step_clear :
    holdsNext
      (step ({ State.reset with
        done := true, ovr := true, ill := true
        res := { Results.reset with segValid := true, levelValid := true, volValid := true, csv := true } }.withFetchWord 8 4))
      (fun t => busRead t 1#6 == 0x9C#32) = true := by decide

/-- Vector B14: a reserved code sets ILL. -/
theorem test_step_reserved :
    holdsNext (step (idleAt (write 0#6 7#32))) (fun t => busRead t 1#6 == 0x40#32) = true := by decide

/-! ### Registers -/

/-- Vectors B8, B15, B16. -/
theorem test_write_cfg :
    holdsNext (step (idleAt (write 2#6 0xFFFFFFFF#32))) (fun t => busRead t 2#6 == 0x000110AF#32) = true
    ∧ holdsNext (step (idleAt (write 2#6 0xB0#32))) (fun t => busRead t 2#6 == 0xA0#32) = true
    ∧ holdsNext (step (idleAt (write 2#6 0x1100#32))) (fun t => busRead t 2#6 == 0x1000#32) = true := by decide

/-- Vectors B9, B10, B11. -/
theorem test_write_pace_and_calibration :
    holdsNext (step (idleAt (write 3#6 0xFFFFFFFF#32))) (fun t => busRead t 3#6 == 0x00FFFFFF#32) = true
    ∧ holdsNext (step (idleAt (write 0x3F#6 0xFFFFFFFF#32)))
        (fun t => busRead t 0x3F#6 == 0x00FFFFFF#32 && busRead t 0x3D#6 == 0#32) = true
    ∧ holdsNext (step (idleAt (write 0x3E#6 0xFFFFFFFF#32)))
        (fun t => busRead t 0x3E#6 == 0x0000FFFF#32 && busRead t 0x3C#6 == 0#32) = true := by decide

/-- Vectors B1 to B7. -/
theorem test_reset_words :
    busRead State.reset 1#6 = 0#32 ∧ busRead State.reset 2#6 = 0xA0#32 ∧ busRead State.reset 3#6 = 0xF4240#32
    ∧ busRead State.reset 10#6 = 0xFFFFFF#32 ∧ busRead State.reset 11#6 = 0x534C4431#32
    ∧ busRead State.reset 0#6 = 0#32 ∧ busRead State.reset 12#6 = 0#32 := by decide

/-- Vector O1: a write while busy sets OVR and stores nothing. -/
theorem test_write_while_busy :
    holdsNext (step (busyAt .charge 3#16 (write 2#6 0x3A5#32)))
      (fun t => busRead t 2#6 == 0xA0#32 && busRead t 1#6 == 0x21#32) = true := by decide

/-- Vector X3: the write at a reset edge is lost, and OVR stays 0. -/
theorem test_reset_edge :
    holdsNext (step (busyAt .charge 3#16 { write 2#6 0x3A5#32 with rst := true }))
      (fun t => busRead t 2#6 == 0xA0#32 && busRead t 1#6 == 0#32 && !t.tx && busRead t 10#6 == 0xFFFFFF#32) = true := by
  decide

/-! ### The wire at its boundaries -/

/-- Vectors W11 (R101), W12 (R103). -/
theorem test_precheck_and_short_circuit :
    holdsNext (step (busyAt .precheck 0#16 (quiet false))) (fun t => busRead t 1#6 == 0x102#32 && !t.tx) = true
    ∧ holdsNext (step (busyAt .charge 1999#16 (quiet false))) (fun t => busRead t 1#6 == 0x202#32 && !t.tx) = true
    ∧ holdsNext (step (busyAt .charge 1998#16 (quiet false))) (fun t => busRead t 1#6 == 1#32) = true := by decide

/-- Vectors W1, W2: the last permitted sample of the first wait. -/
theorem test_first_wait_deadline :
    holdsNext (step { busyAt .waitHigh 16000#16 (quiet true) with seq.first := true })
      (fun t => t.seq.phase == .measHigh && t.seq.cnt == 1#16 && !t.seq.first) = true
    ∧ holdsNext (step { busyAt .waitHigh 16000#16 (quiet false) with seq.first := true })
      (fun t => busRead t 1#6 == 0x302#32) = true := by decide

/-- Vectors W5, W6, W8. -/
theorem test_pulse_deadlines :
    holdsNext (step (busyAt .measHigh 200#16 (quiet false))) (fun t => t.seq.sh == 1#8 && t.seq.phase == .waitHigh) = true
    ∧ holdsNext (step (busyAt .measHigh 200#16 (quiet true))) (fun t => busRead t 1#6 == 0x402#32) = true
    ∧ holdsNext (step (busyAt .waitHigh 200#16 (quiet false))) (fun t => busRead t 1#6 == 0x402#32) = true := by decide

/-- Vectors W3, W4, and R114: 26 samples are a 0, 27 a 1, shifted in at bit 0. -/
theorem test_bit_decision :
    holdsNext (step { busyAt .measHigh 26#16 (quiet false) with seq.sh := 0x1A#8 }) (fun t => t.seq.sh == 0x34#8) = true
    ∧ holdsNext (step { busyAt .measHigh 27#16 (quiet false) with seq.sh := 0x1A#8 }) (fun t => t.seq.sh == 0x35#8) = true := by
  decide

/-- The header bytes of vectors S1a, S1c, S1d, S1e with the payload 10, 20, ..., 100. -/
theorem test_checksums :
    checksumMatches #v[0x00, 0x0A, 10, 20, 30, 40, 50, 60, 70, 80, 90, 100] = false
    ∧ checksumMatches #v[0x02, 0x26, 10, 20, 30, 40, 50, 60, 70, 80, 90, 100] = true
    ∧ checksumMatches #v[0xF2, 0x26, 10, 20, 30, 40, 50, 60, 70, 80, 90, 100] = true
    ∧ checksumField #v[0x26, 0x02, 10, 20, 30, 40, 50, 60, 70, 80, 90, 100] = 0x602#12
    ∧ payloadSum #v[0x26, 0x02, 10, 20, 30, 40, 50, 60, 70, 80, 90, 100] = 0x226#16 := by decide

/-- The commit of program P1. -/
theorem test_success_commit :
    holdsNext
      (step { busyAt .calc 0#16 (quiet false) with
        seq.pkt := #v[0xA3, 2, 5, 5, 5, 5, 0xA, 0x3C, 0x8C, 0xA0, 0xB4, 0xC8]
        cfg.npoints := 3
        cfg.calLevel := (Vector.replicate 16 0#16).set 1 0x5000#16 |>.set 2 0xA000#16
        cfg.calVol := (Vector.replicate 16 0#24).set 1 100#24 |>.set 2 200#24 })
      (fun t => busRead t 1#6 == 0x9E#32 && busRead t 4#6 == 0x4501#32 && busRead t 5#6 == 0x56#32
        && busRead t 6#6 == 0x05050505#32 && busRead t 7#6 == 0xA08C3C0A#32 && busRead t 8#6 == 0xC8B4#32
        && busRead t 9#6 == 0x03020302#32 && busRead t 10#6 == 0#32) = true := by decide

/-! ### The estimators -/

/-- Vectors L1, L3, L5, L6, L8, L9, L11, L14, L15, L18, L22, L23, L27. -/
theorem test_level_vectors :
    (let e := estimateLevel Config.reference
     [e #v[0, 0, 0, 0, 0, 0, 0, 0, 0, 0] 10, e #v[0, 0, 0, 0, 0, 0, 0, 0, 0, 16] 10,
      e #v[0, 0, 0, 0, 0, 0, 0, 0, 0, 229] 10, e #v[0, 0, 0, 0, 0, 0, 0, 0, 0, 230] 10,
      e #v[5, 5, 5, 5, 10, 60, 140, 160, 180, 200] 10, e #v[255, 255, 255, 255, 255, 255, 255, 255, 255, 255] 10,
      e #v[200, 200, 200, 200, 200, 200, 200, 5, 200, 200] 10, e #v[200, 200, 200, 200, 200, 200, 200, 200, 200, 200] 3,
      e #v[200, 200, 200, 200, 200, 200, 200, 200, 200, 200] 0, e #v[0, 0, 0, 0, 0, 0, 0, 0, 200, 255] 10,
      e #v[0, 0, 0, 0, 0, 0, 0, 0, 255, 16] 10, e #v[0, 0, 0, 0, 0, 0, 0, 255, 255, 16] 10,
      e #v[10, 20, 30, 40, 50, 60, 70, 80, 90, 100] 10]) =
    [0, 0x11E, 0xFFE, 0x1010, 0x4501, 0xA000, 0x1FC6, 0x2FC6, 0, 0x1DF7, 0x131E, 0x22ED, 0x7BF7] := by decide

/-- Vectors V3, V3i, V4, V6, V9, V10, V12, V14, V17, V22, V24, V26, V29, V31. -/
theorem test_volume_vectors :
    (let a : List CalPoint := [⟨0, 0⟩, ⟨0x5000, 100⟩, ⟨0xA000, 200⟩]
     let b : List CalPoint := [⟨0x1000, 500⟩, ⟨0x3000, 100⟩, ⟨0x3000, 300⟩, ⟨0x8000, 1000⟩]
     let c : List CalPoint := [⟨0x5000, 100⟩, ⟨0x2000, 40⟩, ⟨0x8000, 300⟩]
     let d : List CalPoint := [⟨0, 0⟩, ⟨0x1000, 1000⟩, ⟨0x2000, 10⟩]
     let e : List CalPoint := [⟨0, 0xFFFFFF⟩, ⟨0xFFFF, 0⟩]
     [estimateVolume true 0x7800 a false, estimateVolume true 0x7800 a true, estimateVolume true 0x4FFF a false,
      estimateVolume true 0xA000 a true, estimateVolume false 0x7800 a true, estimateVolume true 0x7800 [] false,
      estimateVolume true 0x1001 b false, estimateVolume true 0x3000 b false, estimateVolume true 0x7800 (b.take 1) true,
      estimateVolume true 0x3000 c false, estimateVolume true 0x6000 c false, estimateVolume true 0x0800 d true,
      estimateVolume true 0 e true, estimateVolume true 0x8000 e false]) =
    [(true, 150), (true, 50), (true, 99), (true, 0), (false, 0), (false, 0), (true, 499), (true, 300), (true, 0),
     (true, 100), (true, 213), (true, -490), (true, -16777215), (true, 8388479)] := by decide

/-! ### For each statement with hypotheses, states that meet them, clause by clause -/

/-- A READ command at the coming edge, to a tank at `a`, and then edges with the samples `rxs` and no access. -/
def readState (a : BitVec 4) (rxs : List Bool) : State :=
  { State.reset with cfg := { HostRegs.reset with addr := a }, inputs := write 0#6 1#32 :: rxs.map quiet }

theorem inputAt_readState_rst (a : BitVec 4) (rxs : List Bool) (k : Nat) : (inputAt (readState a rxs) k).rst = false := by
  cases k with
  | zero => rfl
  | succ k =>
    simp only [inputAt, readState, List.getElem?_cons_succ, List.getElem?_map]
    cases rxs[k]? <;> rfl

theorem rxAt_readState (a : BitVec 4) (rxs : List Bool) {k : Nat} {b : Bool} (h : rxs[k]? = some b) :
    rxAt (readState a rxs) (k + 1) = b := by
  simp [rxAt, inputAt, readState, h, quiet]

theorem readState_startsAttempt (a : BitVec 4) (rxs : List Bool) : StartsAttempt (readState a rxs) :=
  ⟨(by decide : Config.reference.legal = true), rfl,
    (by decide : HostRegs.reset.minPause.toNat ≤ State.reset.idleUs.toNat)⟩

/-- An entry of a run of equal samples. -/
theorem getElem?_of_run (n : Nat) (b : Bool) (l : List Bool) {k : Nat} (h : k < n) :
    (List.replicate n b ++ l)[k]? = some b := by
  rw [List.getElem?_append_left (by simpa using h), List.getElem?_replicate_of_lt h]

/-- An entry after a run of equal samples. -/
theorem getElem?_after_run (n : Nat) (b : Bool) (l : List Bool) (k : Nat) :
    (List.replicate n b ++ l)[n + k]? = l[k]? := by
  rw [List.getElem?_append_right (by simp)]
  simp

/-- A line that is high for 2001 samples from the precheck edge on passes both checks. -/
theorem readState_passesChecks (a : BitVec 4) (l : List Bool) :
    LinePassesChecks (readState a (List.replicate 2001 true ++ l)) :=
  ⟨rxAt_readState _ _ (getElem?_of_run 2001 true l (k := 0) (by omega)),
    rxAt_readState _ _ (getElem?_of_run 2001 true l (k := 2000) (by omega))⟩

theorem stepsToListening_readState (rxs : List Bool) : stepsToListening (readState 0#4 rxs) = 2002 := by
  simp [stepsToListening, addressTicks, readState, State.reset, Config.reference]

/-- The samples of a READ to address 0 from the start of listening on. -/
theorem rxAt_listening (l : List Bool) {k : Nat} {b : Bool} (h : l[k]? = some b) :
    let s := readState 0#4 (List.replicate 2001 true ++ l)
    rxAt s (stepsToListening s + k) = b := by
  intro s
  have e : stepsToListening s + k = (2001 + k) + 1 := by
    have : stepsToListening s = 2002 := stepsToListening_readState _
    omega
  rw [e]
  exact rxAt_readState _ _ ((getElem?_after_run 2001 true l k).trans h)

/-- The first and the last reserved code, with ignored bits set. -/
theorem witness_DecodingReadsOnlyTheCode :
    5 ≤ ((0xABCDEF05#32).extractLsb' 0 4).toNat ∧ 5 ≤ ((0xFFFFFFFF#32).extractLsb' 0 4).toNat := by
  decide

theorem witness_StepRunsTheDecodedCommand :
    let s := idleAt (write 0#6 0xFFFFFFF1#32)
    s.params.legal = true ∧ (nextInputs s).rst = false ∧ s.seq.phase = .idle ∧ (nextInputs s).sel = true
      ∧ (nextInputs s).we = true ∧ (nextInputs s).addr = 0#6 ∧ decode (nextInputs s).wdata = .ok .read := by
  decide

theorem witness_IllegalParametersAreRefused :
    let s := { State.reset with params := { Config.reference with tBit := 26 } }
    ¬ (1500 ≤ s.params.tCharge ∧ s.params.tCharge ≤ 3000 ∧ 1 ≤ s.params.tAddrLow ∧ s.params.tAddrLow ≤ 65535
      ∧ 1 ≤ s.params.tAddrHigh ∧ s.params.tAddrHigh ≤ 65535 ∧ 14000 ≤ s.params.tFirst ∧ s.params.tFirst ≤ 20000
      ∧ 27 ≤ s.params.tBit ∧ s.params.tBit ≤ 65535 ∧ 1 ≤ s.params.tCalc ∧ s.params.tCalc ≤ 65535
      ∧ 1 ≤ s.params.noiseFloor ∧ s.params.noiseFloor ≤ 255 ∧ 1 ≤ s.params.baseline ∧ s.params.baseline ≤ 255
      ∧ 1 ≤ s.params.dampQ8 ∧ s.params.dampQ8 ≤ 255 ∧ 4096 ≤ s.params.capTop ∧ s.params.capTop ≤ 8191) := by
  simp [Config.reference]

theorem witness_ResetEdgeWinsOverEverything :
    (let s := busyAt .charge 3#16 { write 2#6 0x3A5#32 with rst := true }
     s.params.legal = true ∧ (nextInputs s).rst = true) ∧
    (let s := idleAt { read 2#6 with rst := true }
     (nextInputs s).sel = true ∧ (nextInputs s).we = false) := by
  decide

theorem witness_NopDoesNothing :
    (idleAt (write 0#6 0#32)).params.legal = true ∧ acceptedCommand (idleAt (write 0#6 0#32)) = some .nop ∧
    (let s := busyAt .charge 3#16 (write 0#6 0#32)
     s.params.legal = true ∧ (nextInputs s).rst = false ∧ s.seq.phase ≠ .idle ∧ (nextInputs s).isWrite = true
      ∧ (nextInputs s).addr = 0#6 ∧ decode (nextInputs s).wdata = .ok .nop) ∧
    ∃ t, step (busyAt .charge 3#16 (write 0#6 0#32)) = .next t :=
  ⟨by decide, by decide, by decide, _, rfl⟩

/-- The gate at its limit. -/
theorem witness_ReadStartsAnAttempt :
    let s := { State.reset with idleUs := 1000000#24 }
    s.seq.phase = .idle ∧ s.cfg.minPause.toNat ≤ s.idleUs.toNat := by
  decide

/-- The gate one tick below its limit. -/
theorem witness_ReadTooSoonIsRateLimited :
    let s := { idleAt (write 0#6 1#32) with idleUs := 999999#24 }
    s.params.legal = true ∧ s.seq.phase = .idle ∧ acceptedCommand s = some .read ∧ s.idleUs.toNat < s.cfg.minPause.toNat ∧
      ∃ t, step s = .next t :=
  ⟨by decide, by decide, by decide, by decide, _, rfl⟩

/-- For `LevelIsAccepted` and `VolumeIsAccepted`. -/
theorem witness_idle_block : State.reset.seq.phase = .idle := rfl

theorem witness_ClearClearsThreeFlags :
    (let s := busyAt .charge 3#16 (write 0#6 4#32)
     s.params.legal = true ∧ (nextInputs s).rst = false ∧ s.seq.phase ≠ .idle ∧ (nextInputs s).isWrite = true
      ∧ (nextInputs s).addr = 0#6 ∧ decode (nextInputs s).wdata = .ok .clear) ∧
    ∃ t, step (busyAt .charge 3#16 (write 0#6 4#32)) = .next t :=
  ⟨by decide, _, rfl⟩

/-- The first and the last reserved code. -/
theorem witness_ReservedCodeSetsOnlyIll :
    (idleAt (write 0#6 5#32)).params.legal = true ∧ WritesReservedCode (idleAt (write 0#6 5#32))
      ∧ WritesReservedCode (idleAt (write 0#6 0xFFFFFFFF#32)) := by
  decide

theorem witness_AcceptanceFrameOnTheBus :
    State.reset.seq.phase = .idle ∧ (∃ t, exec .nop State.reset = .next t) ∧ (∃ t, exec .level State.reset = .next t)
      ∧ (∃ t, exec .volume State.reset = .next t) ∧ (∃ t, exec .clear State.reset = .next t)
      ∧ (∃ t, exec .read State.reset = .next t)
      ∧ (∃ t, exec .read { State.reset with idleUs := 999999#24 } = .next t)
      ∧ ({ State.reset with idleUs := 999999#24 }.idleUs.toNat < State.reset.cfg.minPause.toNat) :=
  ⟨rfl, ⟨_, rfl⟩, ⟨_, rfl⟩, ⟨_, rfl⟩, ⟨_, rfl⟩, ⟨_, rfl⟩, ⟨_, rfl⟩, by decide⟩

/-- Each stored word, the first and last calibration words, and a word that stores nothing. -/
theorem witness_RegisterWriteReadsBack :
    ∀ a ∈ [0x02#6, 0x03#6, 0x20#6, 0x3E#6, 0x21#6, 0x3F#6, 0x01#6, 0x0C#6, 0x1F#6],
      let s := idleAt (write a 0xFFFFFFFF#32)
      s.params.legal = true ∧ (nextInputs s).rst = false ∧ s.seq.phase = .idle ∧ (nextInputs s).sel = true
        ∧ (nextInputs s).we = true ∧ (nextInputs s).addr ≠ 0#6 := by
  decide

theorem witness_WriteWhileBusyIsDropped :
    (busyAt .calc 0#16 (quiet false)).seq.phase ≠ .idle ∧ (write 2#6 0x3A5#32).rst = false
      ∧ (write 2#6 0x3A5#32).sel = true ∧ (write 2#6 0x3A5#32).we = true := by
  decide

theorem witness_BusReadHasNoEffect :
    (read 1#6).we = false ∧ (nextInputs (idleAt (read 1#6))).sel = true ∧ (nextInputs (idleAt (read 1#6))).we = false
      ∧ (nextInputs (idleAt (quiet true))).sel = false ∧ (nextInputs (idleAt (write 1#6 0#32))).we = true := by
  decide

theorem witness_PrecheckStartsTheCharge :
    WorkingIn .precheck (busyAt .precheck 0#16 (quiet true)) ∧ rxAt (busyAt .precheck 0#16 (quiet true)) 0 = true := by
  decide

/-- Before the last edge of the charge, at it with address 15, and at it with address 0. -/
theorem witness_ChargeCountsThenBranches :
    (let s := busyAt .charge 1998#16 (quiet false)
     WorkingIn .charge s ∧ s.seq.cnt.toNat ≠ s.params.tCharge - 1) ∧
    (let s := { busyAt .charge 1999#16 (quiet true) with cfg := { HostRegs.reset with addr := 15#4 } }
     WorkingIn .charge s ∧ s.seq.cnt.toNat = s.params.tCharge - 1 ∧ rxAt s 0 = true ∧ s.cfg.addr ≠ 0#4) ∧
    (let s := busyAt .charge 1999#16 (quiet true)
     WorkingIn .charge s ∧ s.seq.cnt.toNat = s.params.tCharge - 1 ∧ rxAt s 0 = true ∧ s.cfg.addr = 0#4) := by
  decide

theorem witness_AddressPulseEdges :
    (let s := busyAt .addrLow 83#16 (quiet false)
     WorkingIn .addrLow s ∧ s.seq.cnt.toNat ≠ s.params.tAddrLow - 1) ∧
    (let s := busyAt .addrLow 84#16 (quiet false)
     WorkingIn .addrLow s ∧ s.seq.cnt.toNat = s.params.tAddrLow - 1) ∧
    (let s := busyAt .addrHigh 298#16 (quiet false)
     WorkingIn .addrHigh s ∧ s.seq.cnt.toNat ≠ s.params.tAddrHigh - 1) ∧
    (let s := { busyAt .addrHigh 299#16 (quiet false) with seq.pulse := 2#4 }
     WorkingIn .addrHigh s ∧ s.seq.cnt.toNat = s.params.tAddrHigh - 1 ∧ s.seq.pulse ≠ 1#4) ∧
    (let s := { busyAt .addrHigh 299#16 (quiet false) with seq.pulse := 1#4 }
     WorkingIn .addrHigh s ∧ s.seq.cnt.toNat = s.params.tAddrHigh - 1 ∧ s.seq.pulse = 1#4) := by
  decide

/-- A sample of 1 at the deadline edge, and a sample of 0 one edge before the deadline of the first and of a later wait. -/
theorem witness_WaitingEdges :
    (let s := busyAt .waitHigh 200#16 (quiet true)
     WorkingIn .waitHigh s ∧ rxAt s 0 = true) ∧
    (let s := busyAt .waitHigh 199#16 (quiet false)
     WorkingIn .waitHigh s ∧ rxAt s 0 = false
      ∧ s.seq.cnt.toNat ≠ (if s.seq.first = true then s.params.tFirst else s.params.tBit)) ∧
    (let s := { busyAt .waitHigh 15999#16 (quiet false) with seq.first := true }
     WorkingIn .waitHigh s ∧ rxAt s 0 = false
      ∧ s.seq.cnt.toNat ≠ (if s.seq.first = true then s.params.tFirst else s.params.tBit)) := by
  decide

/-- A pulse one sample below its limit; a pulse of 26 samples within a byte, of 27 at the end of a byte, of 200 at the end of
the packet. -/
theorem witness_MeasuringEdges :
    (let s := busyAt .measHigh 199#16 (quiet true)
     WorkingIn .measHigh s ∧ rxAt s 0 = true ∧ s.seq.cnt.toNat ≠ s.params.tBit) ∧
    (let s := { busyAt .measHigh 26#16 (quiet false) with seq.bitn := 6#3 }
     WorkingIn .measHigh s ∧ rxAt s 0 = false ∧ s.seq.bitn ≠ 7#3
      ∧ (0#8).toNat = (2 * s.seq.sh.toNat + (decide (26 < s.seq.cnt.toNat)).toNat) % 256) ∧
    (let s := { busyAt .measHigh 27#16 (quiet false) with seq.bitn := 7#3, seq.byten := 10 }
     WorkingIn .measHigh s ∧ rxAt s 0 = false ∧ s.seq.bitn = 7#3 ∧ s.seq.byten ≠ 11
      ∧ (1#8).toNat = (2 * s.seq.sh.toNat + (decide (26 < s.seq.cnt.toNat)).toNat) % 256) ∧
    (let s := { busyAt .measHigh 200#16 (quiet false) with seq.bitn := 7#3, seq.byten := 11 }
     WorkingIn .measHigh s ∧ rxAt s 0 = false ∧ s.seq.bitn = 7#3 ∧ s.seq.byten = 11
      ∧ (1#8).toNat = (2 * s.seq.sh.toNat + (decide (26 < s.seq.cnt.toNat)).toNat) % 256) := by
  decide

/-- The six edges at which an error is raised. -/
theorem witness_ErrorExitWritesExactlyThis :
    (let s := busyAt .precheck 0#16 (quiet false)
     WorkingIn .precheck s ∧ rxAt s 0 = false) ∧
    (let s := busyAt .charge 1999#16 (quiet false)
     WorkingIn .charge s ∧ s.seq.cnt.toNat = s.params.tCharge - 1 ∧ rxAt s 0 = false) ∧
    (let s := { busyAt .waitHigh 16000#16 (quiet false) with seq.first := true }
     WorkingIn .waitHigh s ∧ s.seq.first = true ∧ s.seq.cnt.toNat = s.params.tFirst ∧ rxAt s 0 = false) ∧
    (let s := busyAt .waitHigh 200#16 (quiet false)
     WorkingIn .waitHigh s ∧ s.seq.first = false ∧ s.seq.cnt.toNat = s.params.tBit ∧ rxAt s 0 = false) ∧
    (let s := busyAt .measHigh 200#16 (quiet true)
     WorkingIn .measHigh s ∧ s.seq.cnt.toNat = s.params.tBit ∧ rxAt s 0 = true) ∧
    (let s := { busyAt .calc 0#16 (quiet true) with seq.pkt := #v[0, 1, 0, 0, 0, 0, 0, 0, 0, 0, 0, 0] }
     WorkingIn .calc s ∧ s.seq.op = .read ∧ s.seq.cnt.toNat = s.params.tCalc - 1
      ∧ checksumMatches s.seq.pkt = false) := by
  decide

theorem witness_SuccessCommitWritesExactlyThis :
    let s := busyAt .calc 0#16 (quiet true)
    WorkingIn .calc s ∧ s.seq.op = .read ∧ s.seq.cnt.toNat = s.params.tCalc - 1 ∧ checksumMatches s.seq.pkt = true := by
  decide

/-- Without a stored reading; and with one, in a block that takes three ticks in CALC, one with a dropped write. -/
theorem witness_LevelRecomputesFromTheReading :
    (let s := { State.reset with inputs := [write 0#6 2#32, quiet false] }
     s.params.legal = true ∧ acceptedCommand s = some .level ∧ ResetFree s (1 + s.params.tCalc)
      ∧ s.res.segValid = false) ∧
    (let s := { State.reset with
      params := { Config.reference with tCalc := 3 }
      res := { Results.reset with seg := #v[10, 20, 30, 40, 50, 60, 70, 80, 90, 100], segValid := true }
      inputs := [write 0#6 2#32, quiet false, write 2#6 0#32, quiet true] }
     s.params.legal = true ∧ acceptedCommand s = some .level ∧ ResetFree s (1 + s.params.tCalc)
      ∧ s.res.segValid = true ∧ writesAmong s 1 s.params.tCalc = true) := by
  decide

theorem witness_VolumeRecomputesFromTheLevel :
    let s := { State.reset with inputs := [write 0#6 3#32, write 2#6 0#32] }
    s.params.legal = true ∧ acceptedCommand s = some .volume ∧ ResetFree s (1 + s.params.tCalc) := by
  decide

/-- A READ to tank 15 whose line passes both checks. -/
theorem witness_TransmitFrameIsSent :
    let s := readState 15#4 (List.replicate 2001 true ++ [])
    StartsAttempt s ∧ s.tx = false ∧ ResetFree s (stepsToListening s) ∧ LinePassesChecks s :=
  ⟨readState_startsAttempt _ _, rfl, fun k _ => inputAt_readState_rst _ _ k, readState_passesChecks _ _⟩

/-- 96 pulses of one length, each after a wait of one length. -/
theorem acceptable_replicate {p : Params} {l h : Nat} (h1 : 1 ≤ h) (h2 : h ≤ p.tBit) (l1 : 1 ≤ l) (l2 : l ≤ p.tFirst)
    (l3 : l ≤ p.tBit + 1) : AcceptablePulses p (List.replicate 96 ⟨l, h⟩) := by
  refine ⟨by simp, ?_, ?_, ?_⟩
  · intro q hq
    rw [List.eq_of_mem_replicate hq]
    exact ⟨h1, h2⟩
  · intro q hq
    have hq' : q = ⟨l, h⟩ := by simpa [List.head?_replicate, eq_comm] using hq
    rw [hq']
    exact l2
  · intro q hq
    rw [List.eq_of_mem_replicate (List.mem_of_mem_tail hq)]
    exact ⟨l1, l3⟩

/-- 96 equal pulses are a packet of equal bytes. -/
theorem carries_replicate (q : Pulse) (v : Byte) (h : ∀ j : Fin 8, v.getLsbD (7 - j.val) = q.bit) :
    Carries (List.replicate 96 q) (Vector.replicate 12 v) := by
  intro k j
  have hlt : 8 * k.val + j.val < 96 := by omega
  simp only [Fin.getElem_fin, Vector.getElem_replicate, List.getD_eq_getElem?_getD, List.getElem?_replicate_of_lt hlt]
  exact h j

/-- The packet of zeros, whose checksum matches, with the longest waits, and the packet of ones, whose checksum does not,
with the shortest 1 bits. -/
theorem witness_ReadOfAPacketCommits :
    (let ps := List.replicate 96 ⟨201, 1⟩
     let s := readState 0#4 (List.replicate 2001 true ++ pulseSamples ps)
     StartsAttempt s ∧ LinePassesChecks s ∧ AcceptablePulses s.params ps ∧ Carries ps (Vector.replicate 12 0#8)
      ∧ (∀ k < (pulseSamples ps).length, some (rxAt s (stepsToListening s + k)) = (pulseSamples ps)[k]?)
      ∧ (∀ n, ResetFree s n) ∧ checksumMatches (Vector.replicate 12 0#8) = true) ∧
    (let ps := List.replicate 96 ⟨1, 27⟩
     let s := readState 0#4 (List.replicate 2001 true ++ pulseSamples ps)
     StartsAttempt s ∧ LinePassesChecks s ∧ AcceptablePulses s.params ps ∧ Carries ps (Vector.replicate 12 255#8)
      ∧ (∀ k < (pulseSamples ps).length, some (rxAt s (stepsToListening s + k)) = (pulseSamples ps)[k]?)
      ∧ (∀ n, ResetFree s n) ∧ checksumMatches (Vector.replicate 12 255#8) = false) :=
  ⟨⟨readState_startsAttempt _ _, readState_passesChecks _ _,
      acceptable_replicate (by decide) (by decide) (by decide) (by decide) (by decide), carries_replicate _ _ (by decide),
      fun k h => by rw [List.getElem?_eq_getElem h, rxAt_listening _ (List.getElem?_eq_getElem h)], fun _ k _ => inputAt_readState_rst _ _ k, by decide⟩,
    ⟨readState_startsAttempt _ _, readState_passesChecks _ _,
      acceptable_replicate (by decide) (by decide) (by decide) (by decide) (by decide), carries_replicate _ _ (by decide),
      fun k h => by rw [List.getElem?_eq_getElem h, rxAt_listening _ (List.getElem?_eq_getElem h)], fun _ k _ => inputAt_readState_rst _ _ k, by decide⟩⟩

/-- A listening block with samples `rxs` to come. -/
def listeningState (rxs : List Bool) : State :=
  { State.reset with
    inputs := rxs.map quiet
    seq := { Sequencer.reset with phase := .waitHigh, op := .read, first := true } }

theorem witness_PacketOfPulsesIsReceived :
    let ps := List.replicate 96 ⟨1, 27⟩
    let s := listeningState (pulseSamples ps)
    s.params.legal = true ∧ s.seq.phase = .waitHigh ∧ s.seq.op = .read ∧ s.seq.cnt = 0#16 ∧ s.seq.first = true
      ∧ s.seq.byten = 0 ∧ s.seq.bitn = 0#3 ∧ AcceptablePulses s.params ps ∧ Carries ps (Vector.replicate 12 255#8)
      ∧ ResetFree s (pulseSamples ps).length
      ∧ ∀ k < (pulseSamples ps).length, some (rxAt s k) = (pulseSamples ps)[k]? := by
  refine ⟨by decide, rfl, rfl, rfl, rfl, rfl, rfl,
    acceptable_replicate (by decide) (by decide) (by decide) (by decide) (by decide), carries_replicate _ _ (by decide), ?_, ?_⟩
  · intro k _
    simp only [inputAt, listeningState, List.getElem?_map]
    cases (pulseSamples (List.replicate 96 ⟨1, 27⟩))[k]? <;> rfl
  · intro k hk
    simp only [rxAt, inputAt, listeningState, List.getElem?_map]
    rw [List.getElem?_eq_getElem hk]
    rfl

theorem witness_SilentLineEndsNoResponse :
    let s := readState 0#4 (List.replicate 2001 true ++ (List.replicate 16001 false ++ []))
    StartsAttempt s ∧ LinePassesChecks s ∧ (∀ n, ResetFree s n) ∧
      ∀ k ≤ s.params.tFirst, rxAt s (stepsToListening s + k) = false :=
  ⟨readState_startsAttempt _ _, readState_passesChecks _ _, fun _ k _ => inputAt_readState_rst _ _ k,
    fun _ hk => rxAt_listening _ (getElem?_of_run 16001 false [] (Nat.lt_succ_of_le hk))⟩

theorem witness_ReadEndsWithinTheBound :
    let s := readState 15#4 []
    StartsAttempt s ∧ addressTicks s = 5775 ∧ ∀ n, ResetFree s n :=
  ⟨readState_startsAttempt _ _, rfl, fun _ k _ => inputAt_readState_rst _ _ k⟩

theorem witness_LowIdleLineEndsInterfaceFault :
    let s := readState 0#4 [false]
    StartsAttempt s ∧ s.tx = false ∧ ResetFree s 2 ∧ rxAt s 1 = false :=
  ⟨readState_startsAttempt _ _, rfl, fun k _ => inputAt_readState_rst _ _ k, rfl⟩

/-- The longest pulse within its limit; also for `StepIsTotalUnderTheInvariant`. -/
theorem witness_EveryStepKeepsTheInvariant :
    let s := { busyAt .measHigh 200#16 (quiet false) with seq.bitn := 7#3, seq.byten := 11 }
    Inv s ∧ s.params.legal = true ∧ ∃ t, step s = .next t := by
  refine ⟨⟨by decide, ?_, by decide, by decide⟩, by decide, _, rfl⟩
  refine ⟨by decide, by decide, by decide, by decide, by decide, by decide, by decide, by decide, by decide, by decide,
    by decide⟩

/-- An edge without reset that answers a next state, in each phase, for `PacingCounterCountsFromTheLastAttempt`,
`DoneFollowsCommitsAndAcceptances`, `StickyFlagsAreClearedOnlyByClear` and `NoStepChangesTheParameters`. -/
theorem witness_step_in_each_phase :
    ∀ p ∈ [Phase.idle, .precheck, .charge, .addrLow, .addrHigh, .waitHigh, .measHigh, .calc],
      (nextInputs (busyAt p 0#16 (quiet true))).rst = false
        ∧ holdsNext (step (busyAt p 0#16 (quiet true))) (fun _ => true) = true := by
  decide

/-- Every row of the table of the phases, each at the boundary value of its counter. -/
theorem witness_PhaseMovesOnlyAsListed :
    (let goes := fun (s : State) (p : Phase) => holdsNext (step s) fun t => t.seq.phase == p
     [goes (idleAt (write 0#6 1#32)) .precheck, goes { idleAt (write 0#6 1#32) with idleUs := 999999#24 } .idle,
      goes (idleAt (write 0#6 2#32)) .calc, goes (idleAt (write 0#6 3#32)) .calc, goes (idleAt (write 0#6 0#32)) .idle,
      goes (idleAt (write 0#6 4#32)) .idle, goes (idleAt (quiet true)) .idle,
      goes (busyAt .precheck 0#16 (quiet true)) .charge, goes (busyAt .precheck 0#16 (quiet false)) .idle,
      goes (busyAt .charge 1998#16 (quiet false)) .charge, goes (busyAt .charge 1999#16 (quiet false)) .idle,
      goes (busyAt .charge 1999#16 (quiet true)) .waitHigh,
      goes { busyAt .charge 1999#16 (quiet true) with cfg := { HostRegs.reset with addr := 1#4 } } .addrLow,
      goes (busyAt .addrLow 83#16 (quiet false)) .addrLow, goes (busyAt .addrLow 84#16 (quiet false)) .addrHigh,
      goes (busyAt .addrHigh 298#16 (quiet false)) .addrHigh,
      goes { busyAt .addrHigh 299#16 (quiet false) with seq.pulse := 1#4 } .waitHigh,
      goes { busyAt .addrHigh 299#16 (quiet false) with seq.pulse := 2#4 } .addrLow,
      goes (busyAt .waitHigh 200#16 (quiet true)) .measHigh, goes (busyAt .waitHigh 200#16 (quiet false)) .idle,
      goes (busyAt .waitHigh 199#16 (quiet false)) .waitHigh,
      goes { busyAt .waitHigh 200#16 (quiet false) with seq.first := true } .waitHigh,
      goes { busyAt .waitHigh 16000#16 (quiet false) with seq.first := true } .idle,
      goes (busyAt .measHigh 200#16 (quiet true)) .idle, goes (busyAt .measHigh 199#16 (quiet true)) .measHigh,
      goes (busyAt .measHigh 200#16 (quiet false)) .waitHigh,
      goes { busyAt .measHigh 1#16 (quiet false) with seq.bitn := 7#3, seq.byten := 11 } .calc,
      goes (busyAt .calc 0#16 (quiet false)) .idle,
      goes { busyAt .calc 0#16 (quiet false) with params := { Config.reference with tCalc := 2 } } .calc]) =
    List.replicate 29 true := by
  decide

/-- A commit changes the results, and the commit of a READ changes `ERR`. -/
theorem witness_ResultsChangeOnlyAtCommits :
    holdsNext (step (busyAt .precheck 0#16 (quiet false)))
      (fun t => decide (t.res ≠ (busyAt .precheck 0#16 (quiet false)).res) && decide (t.res.err ≠ 0#3)) = true := by
  decide

theorem witness_HostRegistersChangeOnlyByIdleWrites :
    (nextInputs (idleAt (write 2#6 0#32))).rst = false ∧
    holdsNext (step (idleAt (write 2#6 0#32))) (fun t => decide (t.cfg ≠ (idleAt (write 2#6 0#32)).cfg)) = true := by
  decide

/-- The charge at its last edge and one edge before it. -/
theorem witness_RxMattersExactlyWhereStated :
    (let s := busyAt .charge 1999#16 (quiet true)
     s.params.legal = true ∧ (quiet true).rst = false ∧ s.seq.phase = .charge
      ∧ s.seq.cnt.toNat = s.params.tCharge - 1) ∧
    (let s := busyAt .charge 1998#16 (quiet true)
     s.seq.phase = .charge ∧ s.seq.cnt.toNat ≠ s.params.tCharge - 1) := by
  decide

/-- Also for `LevelIsZeroExactlyWhenTheBottomIsDry` and `SequentialListingComputesTheLevel`. -/
theorem witness_LevelNeverExceedsTheSegments :
    Config.reference.legal = true ∧ 10 ≤ 10 ∧
      1 ≤ (wetSegments Config.reference #v[0, 0, 0, 0, 0, 0, 0, 0, 0, 16] 10).length := by
  decide

/-- A dry entry at 7 with other values above it, and no dry entry. -/
theorem witness_LevelIgnoresWhatTheScanDoesNotReach :
    (let r : Vector Byte 10 := #v[0, 0, 0, 0, 0, 0, 0, 15, 200, 200]
     let r' : Vector Byte 10 := #v[9, 9, 9, 9, 9, 9, 255, 15, 200, 200]
     (7 = 0 ∨ (7 < 10 ∧ (r.toList.getD 7 0#8).toNat < Config.reference.noiseFloor)) ∧
      ∀ j < 10, 7 ≤ j → r'.toList.getD j 0#8 = r.toList.getD j 0#8) ∧
    (let r : Vector Byte 10 := #v[200, 200, 200, 0, 0, 0, 0, 0, 0, 0]
     let r' : Vector Byte 10 := #v[200, 200, 200, 9, 9, 9, 9, 9, 9, 9]
     ∀ j < 3, 0 ≤ j → r'.toList.getD j 0#8 = r.toList.getD j 0#8) := by
  decide

/-- The topmost wet segment is the top one, and the bottom one. -/
theorem witness_RaisingTheTopmostWetSegmentNeverLowersTheLevel :
    (let r : Vector Byte 10 := #v[200, 200, 200, 200, 200, 200, 200, 200, 200, 200]
     1 ≤ (wetSegments Config.reference r 10).length ∧ 0 + (wetSegments Config.reference r 10).length = 10
      ∧ r[0].toNat ≤ (255#8).toNat) ∧
    (let r : Vector Byte 10 := #v[0, 0, 0, 0, 0, 0, 0, 0, 0, 200]
     1 ≤ (wetSegments Config.reference r 10).length ∧ 9 + (wetSegments Config.reference r 10).length = 10
      ∧ r[9].toNat ≤ (255#8).toNat) := by
  decide

/-- Table A of spec/95_test_vectors.md, the search stopping at an entry and at the end, and a level below the first entry, for
`VolumeCasesBeforeTheSearch`, `SearchStopsAtTheFirstExceedingLevel`, `InterpolationIsOneFloor`,
`VolumeClampsOutsideTheTable` and `VolumeLiesBetweenTheEntries`. -/
theorem witness_search :
    (let pts : List CalPoint := [⟨0, 0⟩, ⟨0x5000, 100⟩, ⟨0xA000, 200⟩]
     pts ≠ [] ∧ searchPoint pts 0x7800 = 2 ∧ 1 ≤ searchPoint pts 0x7800 ∧ searchPoint pts 0x7800 < pts.length
      ∧ pts[2 - 1]? = some ⟨0x5000, 100⟩ ∧ pts[2]? = some ⟨0xA000, 200⟩ ∧ searchPoint pts 0xA000 = pts.length
      ∧ (∀ c ∈ pts, c.level ≤ 0xA000) ∧ ∀ c ∈ pts, 0 ≤ c.vol ∧ c.vol ≤ 200) ∧
    (let pts : List CalPoint := [⟨0x1000, 500⟩, ⟨0x8000, 1000⟩]
     pts ≠ [] ∧ 0x0FFF < 0x1000 ∧ searchPoint pts 0x0FFF = 0) := by
  decide

/-- Strictly increasing levels for `VolumeIsExactAtBreakpoints`, and sorted levels with two equal ones for
`VolumeIsNondecreasingOnSortedTables`. -/
theorem witness_sorted_tables :
    (([⟨0, 0⟩, ⟨0x5000, 100⟩, ⟨0xA000, 200⟩] : List CalPoint).map CalPoint.level).Pairwise (· < ·) ∧
    ([⟨0, 0⟩, ⟨0x5000, 100⟩, ⟨0xA000, 200⟩] : List CalPoint)[2]? = some ⟨0xA000, 200⟩ ∧
    (([⟨0x1000, 1⟩, ⟨0x3000, 2⟩, ⟨0x3000, 3⟩] : List CalPoint).map CalPoint.level).Pairwise (· ≤ ·) ∧
    (([⟨0x1000, 1⟩, ⟨0x3000, 2⟩, ⟨0x3000, 3⟩] : List CalPoint).map CalPoint.vol).Pairwise (· ≤ ·) ∧
    0x2000 ≤ 0x2FFF := by
  decide

end Sys2Proof.Tests
end

section
/-! `DONE` (spec/10_state.md R27). A sequencer rule sets it exactly when it commits, which is when it ends in IDLE; an
accepted command leaves in it what `doneAfter` says; no other idle edge touches it. -/

namespace Sys2Proof.Machine

/-! ### A busy edge -/

@[simp] theorem edgeBase_done (s : State) : (edgeBase s).done = s.done := rfl

@[simp] theorem edgeBase_phase (s : State) : (edgeBase s).seq.phase = s.seq.phase := rfl

/-- From `s` to `t` the block stays busy and keeps `DONE`, or it commits: it becomes idle and `DONE` is set. -/
def DoneMarksCommit (s t : State) : Prop := t.done = if t.seq.phase = .idle then true else s.done

/-- A rule that ends in IDLE with `DONE` set is a commit. -/
theorem DoneMarksCommit.of_commit {s t : State} (hp : t.seq.phase = .idle) (hd : t.done = true) :
    DoneMarksCommit s t := by
  simp [DoneMarksCommit, hp, hd]

/-- A rule that ends in another phase and keeps `DONE`. -/
theorem DoneMarksCommit.of_busy {s t : State} (hp : t.seq.phase ≠ .idle) (hd : t.done = s.done) :
    DoneMarksCommit s t := by
  simp [DoneMarksCommit, hp, hd]

theorem errorExit_doneMarksCommit (e : ErrorKind) (s : State) : DoneMarksCommit s (errorExit e s) :=
  .of_commit rfl rfl

theorem countTick_doneMarksCommit {s : State} (hs : s.seq.phase ≠ .idle) : DoneMarksCommit s (countTick s) :=
  .of_busy hs rfl

theorem startListening_doneMarksCommit (s : State) : DoneMarksCommit s (startListening s) :=
  .of_busy (by simp) rfl

theorem enterPhase_doneMarksCommit {p : Phase} (hp : p ≠ .idle) (v : Bool) (c : BitVec 16) (s : State) :
    DoneMarksCommit s (enterPhase p v c s) :=
  .of_busy hp rfl

/-- A bit leads on to the next pulse or, the 96th, to CALC. -/
theorem shiftBit_doneMarksCommit (b : Bool) (s : State) : DoneMarksCommit s (shiftBit b s) := by
  by_cases hb : s.seq.bitn = 7#3
  · by_cases hy : s.seq.byten = 11
    · rw [shiftBit_ends_packet b hb hy]
      exact .of_busy (by simp) rfl
    · rw [shiftBit_ends_byte b hb hy]
      exact .of_busy (by simp) rfl
  · rw [shiftBit_within_byte b hb]
    exact .of_busy (by simp) rfl

theorem precheckPhase_doneMarksCommit (rx : Bool) (s : State) : DoneMarksCommit s (precheckPhase rx s) := by
  cases rx with
  | false => exact errorExit_doneMarksCommit .interfaceFault s
  | true => exact enterPhase_doneMarksCommit (p := .charge) (by decide) true 0#16 s

theorem chargePhase_doneMarksCommit (rx : Bool) {s : State} (hs : s.seq.phase ≠ .idle) :
    DoneMarksCommit s (chargePhase rx s) := by
  unfold chargePhase
  split_ifs
  · exact errorExit_doneMarksCommit _ s
  · exact startListening_doneMarksCommit s
  · exact .of_busy (by simp) rfl
  · exact countTick_doneMarksCommit hs

theorem addrLowPhase_doneMarksCommit {s : State} (hs : s.seq.phase ≠ .idle) :
    DoneMarksCommit s (addrLowPhase s) := by
  unfold addrLowPhase
  split_ifs
  · exact enterPhase_doneMarksCommit (by decide) _ _ s
  · exact countTick_doneMarksCommit hs

theorem addrHighPhase_doneMarksCommit {s : State} (hs : s.seq.phase ≠ .idle) :
    DoneMarksCommit s (addrHighPhase s) := by
  unfold addrHighPhase
  split_ifs
  · exact .of_busy (by simp) rfl
  · exact .of_busy (by simp) rfl
  · exact countTick_doneMarksCommit hs

theorem waitHighPhase_doneMarksCommit (rx : Bool) {s : State} (hs : s.seq.phase ≠ .idle) :
    DoneMarksCommit s (waitHighPhase rx s) := by
  unfold waitHighPhase
  split_ifs
  · exact .of_busy (by simp) rfl
  · exact errorExit_doneMarksCommit _ s
  · exact errorExit_doneMarksCommit _ s
  · exact countTick_doneMarksCommit hs

theorem measHighPhase_doneMarksCommit (rx : Bool) {s : State} (hs : s.seq.phase ≠ .idle) :
    DoneMarksCommit s (measHighPhase rx s) := by
  unfold measHighPhase
  split_ifs
  · exact shiftBit_doneMarksCommit _ s
  · exact errorExit_doneMarksCommit _ s
  · exact countTick_doneMarksCommit hs

theorem calcPhase_doneMarksCommit {s t : State} (hs : s.seq.phase ≠ .idle) (h : calcPhase s = .next t) :
    DoneMarksCommit s t := by
  rcases calcPhase_next h with ⟨-, rfl⟩ | ⟨-, ⟨-, -, rfl⟩ | ⟨-, -, rfl⟩ | ⟨-, rfl⟩ | ⟨-, rfl⟩⟩
  · exact countTick_doneMarksCommit hs
  · exact .of_commit rfl rfl
  · exact errorExit_doneMarksCommit _ s
  · exact .of_commit rfl rfl
  · exact .of_commit rfl rfl

/-- The sequencer rule of every phase but IDLE sets `DONE` exactly when it commits. -/
theorem sequencer_doneMarksCommit {rx : Bool} {s t : State} (hs : s.seq.phase ≠ .idle)
    (h : sequencer rx s = .next t) : DoneMarksCommit s t := by
  rcases sequencer_next h with ⟨hi, -⟩ | ⟨-, rfl⟩ | ⟨-, rfl⟩ | ⟨-, rfl⟩ | ⟨-, rfl⟩ | ⟨-, rfl⟩ | ⟨-, rfl⟩ | ⟨-, h⟩
  · exact absurd hi hs
  · exact precheckPhase_doneMarksCommit rx s
  · exact chargePhase_doneMarksCommit rx hs
  · exact addrLowPhase_doneMarksCommit hs
  · exact addrHighPhase_doneMarksCommit hs
  · exact waitHighPhase_doneMarksCommit rx hs
  · exact measHighPhase_doneMarksCommit rx hs
  · exact calcPhase_doneMarksCommit hs h

/-! ### An idle edge -/

/-- The command of a write to `CMD` is accepted, unless its code is reserved. -/
theorem acceptedCommand_of_write {s : State} (hr : (nextInputs s).rst = false) (hp : s.seq.phase = .idle)
    (hw : (nextInputs s).isWrite = true) (ha : (nextInputs s).addr = 0#6) :
    acceptedCommand s = (decode (nextInputs s).wdata).toOption := by
  unfold acceptedCommand
  dsimp only
  rw [if_pos ⟨hr, hp, hw, ha⟩]
  cases decode (nextInputs s).wdata <;> rfl

theorem acceptedCommand_of_no_write {s : State} (hw : (nextInputs s).isWrite = false) : acceptedCommand s = none := by
  simp [acceptedCommand, hw]

theorem acceptedCommand_of_other_address {s : State} (ha : (nextInputs s).addr ≠ 0#6) : acceptedCommand s = none := by
  simp [acceptedCommand, ha]

/-- An idle edge runs the command it accepts; one that accepts none does nothing, sets `ILL` or writes a register. Then
comes what every edge does. -/
theorem step_next_of_idle {s t : State} (hr : (nextInputs s).rst = false) (hp : s.seq.phase = .idle)
    (h : step s = .next t) :
    (∃ c u, acceptedCommand s = some c ∧ exec c s = .next u ∧ t = advance u) ∨
    (acceptedCommand s = none ∧
      (t = advance s ∨ t = advance { s with ill := true } ∨ ∃ r w, t = advance (writeReg s r w))) := by
  rw [step_of_idle (step_next h).1 hr hp] at h
  rcases idleEdge_next h with ⟨hw, rfl⟩ | ⟨hw, u, hu, rfl⟩
  · exact .inr ⟨acceptedCommand_of_no_write hw, .inl rfl⟩
  · rcases idleWrite_next hu with ⟨ha, hc⟩ | ⟨ha, rfl⟩
    · have hacc := acceptedCommand_of_write hr hp hw ha
      rcases command_next hc with ⟨c, hd, hx⟩ | ⟨e, hd, rfl⟩
      · exact .inl ⟨c, u, by rw [hacc, hd]; rfl, hx, rfl⟩
      · exact .inr ⟨by rw [hacc, hd]; rfl, .inr (.inl rfl)⟩
    · exact .inr ⟨acceptedCommand_of_other_address ha, .inr (.inr ⟨_, _, rfl⟩)⟩

/-- `DONE` after the acceptance of a command: set by a RateLimited READ, cleared by every other READ, by LEVEL, VOLUME and
CLEAR, kept by NOP. -/
def doneAfter (s : State) : Instr → Bool
  | .nop => s.done
  | .read => decide (s.idleUs.toNat < s.cfg.minPause.toNat)
  | .level => false
  | .volume => false
  | .clear => false

theorem exec_done {c : Instr} {s t : State} (h : exec c s = .next t) : t.done = doneAfter s c := by
  rcases exec_next h with ⟨rfl, rfl⟩ | ⟨rfl, hlt, rfl⟩ | ⟨rfl, hge, rfl⟩ | ⟨rfl, rfl⟩ | ⟨rfl, rfl⟩ | ⟨rfl, rfl⟩
  · rfl
  · simp [doneAfter, hlt]
  · simp [doneAfter, hge]
  · rfl
  · rfl
  · rfl

/-- An idle edge that accepts no command keeps `DONE`. -/
theorem step_done_of_idle {s t : State} (hr : (nextInputs s).rst = false) (hp : s.seq.phase = .idle)
    (h : step s = .next t) : t.done = (acceptedCommand s).elim s.done (doneAfter s) := by
  rcases step_next_of_idle hr hp h with ⟨c, u, hacc, hx, rfl⟩ | ⟨hacc, rfl | rfl | ⟨r, w, rfl⟩⟩
  · rw [hacc, advance_done, exec_done hx]
    rfl
  all_goals rw [hacc]; rfl

/-- Settles O42: a busy edge by `DoneMarksCommit`, an idle edge by the command it accepts. -/
theorem doneFollowsCommitsAndAcceptances : Obligations.DoneFollowsCommitsAndAcceptances := by
  intro s t hr h
  by_cases hp : s.seq.phase = .idle
  · rw [if_neg (not_not_intro hp), step_done_of_idle hr hp h]
    rcases acceptedCommand s with - | (_ | _ | _ | _ | _) <;> rfl
  · rw [if_pos hp]
    rw [step_of_busy (step_next h).1 hr hp] at h
    have hb : (edgeBase s).seq.phase ≠ .idle := by rwa [edgeBase_phase]
    simpa only [DoneMarksCommit, edgeBase_done] using sequencer_doneMarksCommit hb h

end Sys2Proof.Machine
end

section
/-! A bus read (spec/20_memory.md R57). An edge looks at its access only to perform or drop a write, so what an edge
without a write does is said with its reset and its sample of `rx` alone. -/

namespace Sys2Proof.Machine

theorem isWrite_of_we_false {i : Inputs} (h : i.we = false) : i.isWrite = false := by
  simp [Inputs.isWrite, h]

theorem isWrite_of_sel_false {i : Inputs} (h : i.sel = false) : i.isWrite = false := by
  simp [Inputs.isWrite, h]

/-- An idle edge without a write does only what every edge does. -/
theorem idleEdge_of_no_write {i : Inputs} (h : i.isWrite = false) (s : State) : idleEdge i s = .next (advance s) := by
  obtain ⟨t, ht⟩ := idleEdge_isNext i s
  rcases idleEdge_next ht with ⟨-, rfl⟩ | ⟨hw, -⟩
  · exact ht
  · simp [h] at hw

/-- A busy edge without a write has nothing to drop. -/
theorem busyEdge_of_no_write {i : Inputs} (h : i.isWrite = false) (s : State) :
    busyEdge i s = sequencer i.rx (advance s) := by
  have hw : (i.sel && i.we) = false := h
  simp [busyEdge, droppedWrite_eq, hw]

/-- An edge without a write, in every phase and with or without reset: the access is not looked at. -/
theorem clockEdge_of_no_write {i : Inputs} (h : i.isWrite = false) (s : State) :
    clockEdge i s =
      if i.rst = true then .next (resetEdge s)
      else if s.seq.phase = .idle then .next (advance s)
      else sequencer i.rx (advance s) := by
  rw [clockEdge, idleEdge_of_no_write h, busyEdge_of_no_write h]

/-- A step takes the head of the queue as the inputs of its edge. -/
theorem step_cons (s : State) (i : Inputs) (rest : List Inputs) :
    step { s with inputs := i :: rest } =
      if s.params.legal = true then clockEdge i { s with inputs := i :: rest } else .refused .illegalParameters := rfl

/-- Two edges without a write that agree in `rst` and `rx` are the same step. -/
theorem step_congr_of_no_write {i j : Inputs} (hi : i.isWrite = false) (hj : j.isWrite = false)
    (hrst : i.rst = j.rst) (hrx : i.rx = j.rx) (s : State) (rest : List Inputs) :
    step { s with inputs := i :: rest } = step { s with inputs := j :: rest } := by
  rw [step_cons, step_cons, clockEdge_of_no_write hi, clockEdge_of_no_write hj, hrst, hrx]
  rfl

/-- The read data of a read is the word of the state before the edge. -/
theorem rdata_of_read {s : State} (hs : (nextInputs s).sel = true) (hw : (nextInputs s).we = false) :
    rdata s = busRead s (nextInputs s).addr :=
  if_pos ⟨hs, hw⟩

/-- The read data is 0 at an edge without a read. -/
theorem rdata_of_no_read {s : State} (h : (nextInputs s).sel = false ∨ (nextInputs s).we = true) : rdata s = 0#32 := by
  refine if_neg fun ⟨hs, hw⟩ => ?_
  rcases h with h | h
  · exact Bool.false_ne_true (h.symm.trans hs)
  · exact Bool.false_ne_true (hw.symm.trans h)

/-- Settles O17: neither an edge with a read nor the same edge without the access has a write, and the two agree in `rst`
and `rx`. -/
theorem busReadHasNoEffect : Obligations.BusReadHasNoEffect := by
  refine ⟨fun s i rest hwe => ?_, fun s => rdata_of_read, fun s => rdata_of_no_read⟩
  exact step_congr_of_no_write (j := { i with sel := false }) (isWrite_of_we_false hwe) (isWrite_of_sel_false rfl)
    rfl rfl s rest

end Sys2Proof.Machine
end

section
/-! The edges of the phases of an attempt (spec/40_wire_decoder.md R101 to R115): a step of a block at work is the rule of
its phase on `edgeBase`. -/

namespace Sys2Proof.Machine

@[simp] theorem edgeBase_seq (s : State) : (edgeBase s).seq = s.seq := rfl

theorem WorkingIn.phase {p : Phase} {s : State} (h : WorkingIn p s) : s.seq.phase = p := h.2.2

/-- A step of a block at work is the sequencer rule on `edgeBase`, with the sample of `rx` of the edge. -/
theorem step_of_workingIn {p : Phase} {s : State} (h : WorkingIn p s) (hp : p ≠ .idle) :
    step s = sequencer (rxAt s 0) (edgeBase s) := by
  obtain ⟨hl, hr, hph⟩ := h
  rw [step_of_busy hl hr (hph ▸ hp), nextInputs_eq_inputAt]
  rfl

theorem step_in_precheck {s : State} (h : WorkingIn .precheck s) :
    step s = .next (precheckPhase (rxAt s 0) (edgeBase s)) := by
  rw [step_of_workingIn h (by decide), sequencer, edgeBase_phase, h.phase]

theorem step_in_charge {s : State} (h : WorkingIn .charge s) :
    step s = .next (chargePhase (rxAt s 0) (edgeBase s)) := by
  rw [step_of_workingIn h (by decide), sequencer, edgeBase_phase, h.phase]

theorem step_in_addrLow {s : State} (h : WorkingIn .addrLow s) : step s = .next (addrLowPhase (edgeBase s)) := by
  rw [step_of_workingIn h (by decide), sequencer, edgeBase_phase, h.phase]

theorem step_in_addrHigh {s : State} (h : WorkingIn .addrHigh s) : step s = .next (addrHighPhase (edgeBase s)) := by
  rw [step_of_workingIn h (by decide), sequencer, edgeBase_phase, h.phase]

theorem step_in_waitHigh {s : State} (h : WorkingIn .waitHigh s) :
    step s = .next (waitHighPhase (rxAt s 0) (edgeBase s)) := by
  rw [step_of_workingIn h (by decide), sequencer, edgeBase_phase, h.phase]

theorem step_in_measHigh {s : State} (h : WorkingIn .measHigh s) :
    step s = .next (measHighPhase (rxAt s 0) (edgeBase s)) := by
  rw [step_of_workingIn h (by decide), sequencer, edgeBase_phase, h.phase]

theorem step_in_calc {s : State} (h : WorkingIn .calc s) : step s = calcPhase (edgeBase s) := by
  rw [step_of_workingIn h (by decide), sequencer, edgeBase_phase, h.phase]

/-- Settles O19, by the branches of `chargePhase`. -/
theorem chargeCountsThenBranches : Obligations.ChargeCountsThenBranches := by
  intro s h
  rw [step_in_charge h]
  refine ⟨fun hc => ?_, fun hc hrx ha => ?_, fun hc hrx ha => ?_⟩
  · rw [chargePhase_counts (s := edgeBase s) _ hc]
    rfl
  · rw [hrx, chargePhase_addresses (s := edgeBase s) hc ha]
    rfl
  · rw [hrx, chargePhase_listens (s := edgeBase s) hc ha]
    rfl

/-- Settles O20, by the branches of `addrLowPhase` and `addrHighPhase`, which are not given `rx`. -/
theorem addressPulseEdges : Obligations.AddressPulseEdges := by
  refine fun s => ⟨fun h => ?_, fun h => ?_⟩
  · rw [step_in_addrLow h]
    refine ⟨fun hc => ?_, fun hc => ?_⟩
    · rw [addrLowPhase_counts (s := edgeBase s) hc]
      rfl
    · rw [addrLowPhase_ends (s := edgeBase s) hc]
      rfl
  · rw [step_in_addrHigh h]
    refine ⟨fun hc => ?_, fun hc hp => ?_, fun hc hp => ?_⟩
    · rw [addrHighPhase_counts (s := edgeBase s) hc]
      rfl
    · rw [addrHighPhase_repeats (s := edgeBase s) hc hp]
      rfl
    · rw [addrHighPhase_listens (s := edgeBase s) hc hp]
      rfl

/-- Settles O22: the count by `measHighPhase_counts`, a sample of 0 by the three cases of `shiftBit`, where `v` is the byte
with the bit shifted in. -/
theorem measuringEdges : Obligations.MeasuringEdges := by
  intro s h
  rw [step_in_measHigh h]
  refine ⟨fun hrx hc => ?_, fun hrx v hv => ?_⟩
  · rw [hrx, measHighPhase_counts (s := edgeBase s) hc]
    rfl
  · obtain rfl : v = shiftIn s.seq.sh (decide (Config.tThresh < s.seq.cnt.toNat)) :=
      BitVec.eq_of_toNat_eq (hv.trans (shiftIn_toNat _ _).symm)
    rw [hrx, measHighPhase_low]
    refine ⟨fun hb => ?_, fun hb hy => ?_, fun hb hy => ?_⟩
    · rw [shiftBit_within_byte (s := edgeBase s) _ hb]
      rfl
    · rw [shiftBit_ends_byte (s := edgeBase s) _ hb hy]
      rfl
    · rw [shiftBit_ends_packet (s := edgeBase s) _ hb hy]
      rfl

end Sys2Proof.Machine
end

section
/-! Runs within one attempt. `AttemptRun n s t` says that `n` edges lead from `s` to `t` and that the block is busy with the
same command, outcome and configuration all the way; such runs compose, and the counting phases give them. -/

namespace Sys2Proof.Machine

/-! ### Splitting a run -/

theorem rxAt_of_run {m : Nat} {s t : State} (h : run m s = .next t) (k : Nat) : rxAt t k = rxAt s (m + k) := by
  rw [rxAt, inputAt_of_run h, rxAt]

theorem ResetFree.after_run {m n : Nat} {s t : State} (hr : ResetFree s (m + n)) (h : run m s = .next t) :
    ResetFree t n := by
  intro k hk
  rw [inputAt_of_run h]
  exact hr _ (by omega)

/-! ### One attempt -/

/-- At `u` the attempt in progress at `s` goes on: the block is busy, and the command in flight and all that a commit, an
acceptance or the host writes are as at `s`. -/
structure SameAttempt (s u : State) : Prop where
  busy : u.seq.phase ≠ .idle
  op : u.seq.op = s.seq.op
  done : u.done = s.done
  res : u.res = s.res
  cfg : u.cfg = s.cfg
  params : u.params = s.params

theorem SameAttempt.refl {s : State} (h : s.seq.phase ≠ .idle) : SameAttempt s s := ⟨h, rfl, rfl, rfl, rfl, rfl⟩

theorem SameAttempt.trans {s t u : State} (h : SameAttempt s t) (h' : SameAttempt t u) : SameAttempt s u :=
  ⟨h'.busy, h'.op.trans h.op, h'.done.trans h.done, h'.res.trans h.res, h'.cfg.trans h.cfg, h'.params.trans h.params⟩

/-- `n` steps lead from `s` to `t`, all within one attempt. -/
structure AttemptRun (n : Nat) (s t : State) : Prop where
  ends : run n s = .next t
  during : ∀ k ≤ n, ∃ u, run k s = .next u ∧ SameAttempt s u

theorem AttemptRun.same {n : Nat} {s t : State} (h : AttemptRun n s t) : SameAttempt s t := by
  obtain ⟨u, hu, hs⟩ := h.during n le_rfl
  obtain rfl : t = u := by simpa using h.ends.symm.trans hu
  exact hs

theorem AttemptRun.zero {s : State} (h : s.seq.phase ≠ .idle) : AttemptRun 0 s s where
  ends := rfl
  during k hk := ⟨s, by rw [Nat.le_zero.mp hk, run_zero], .refl h⟩

theorem AttemptRun.trans {m n : Nat} {s t u : State} (h : AttemptRun m s t) (h' : AttemptRun n t u) :
    AttemptRun (m + n) s u where
  ends := (run_add h.ends n).trans h'.ends
  during k hk := by
    rcases le_total k m with hkm | hkm
    · exact h.during k hkm
    · obtain ⟨j, rfl⟩ := Nat.exists_eq_add_of_le hkm
      obtain ⟨v, hv, hs⟩ := h'.during j (by omega)
      exact ⟨v, (run_add h.ends j).trans hv, h.same.trans hs⟩

theorem AttemptRun.of_step {s t : State} (hp : s.seq.phase ≠ .idle) (h : step s = .next t) (hs : SameAttempt s t) :
    AttemptRun 1 s t where
  ends := run_succ_of_step h 0
  during k hk := by
    obtain rfl | rfl := Nat.le_one_iff_eq_zero_or_eq_one.mp hk
    · exact ⟨s, rfl, .refl hp⟩
    · exact ⟨t, run_succ_of_step h 0, hs⟩

/-- A run up to its last edge, and that edge. -/
theorem AttemptRun.last_edge {n : Nat} {s t u : State} (h : AttemptRun (n - 1) s t) (hn : 1 ≤ n)
    (hstep : step t = .next u) (hs : SameAttempt t u) : AttemptRun n s u :=
  Nat.sub_add_cancel hn ▸ h.trans (.of_step h.same.busy hstep hs)

/-! ### A block at work for some edges -/

/-- The block is in phase `p`, with legal parameters and no reset at the next `n` edges. -/
structure Ready (p : Phase) (n : Nat) (s : State) : Prop where
  legal : s.params.legal = true
  phase : s.seq.phase = p
  resetFree : ResetFree s n

theorem Ready.workingIn {p : Phase} {n : Nat} {s : State} (h : Ready p n s) (hn : 0 < n) : WorkingIn p s :=
  ⟨h.legal, by rw [nextInputs_eq_inputAt]; exact h.resetFree 0 hn, h.phase⟩

theorem Ready.mono {p : Phase} {m n : Nat} {s : State} (h : Ready p n s) (hmn : m ≤ n) : Ready p m s :=
  ⟨h.legal, h.phase, fun k hk => h.resetFree k (by omega)⟩

theorem Ready.after {p p' : Phase} {m n : Nat} {s t : State} (h : Ready p (m + n) s) (hrun : AttemptRun m s t)
    (hp : t.seq.phase = p') : Ready p' n t :=
  ⟨hrun.same.params ▸ h.legal, hp, h.resetFree.after_run hrun.ends⟩

/-! ### Counting -/

/-- The count at which the phase of `s` stops counting (spec/40_wire_decoder.md R102 to R113,
spec/43_orchestrator_and_commands.md R180); IDLE and PRECHECK do not count. -/
def phaseLimit (s : State) : Nat :=
  match s.seq.phase with
  | .idle => 0
  | .precheck => 0
  | .charge => s.params.tCharge - 1
  | .addrLow => s.params.tAddrLow - 1
  | .addrHigh => s.params.tAddrHigh - 1
  | .waitHigh => waitLimit s
  | .measHigh => s.params.tBit
  | .calc => s.params.tCalc - 1

/-- Whether a phase below its limit counts at an edge whose sample is `rx`. -/
def countsOn : Phase → Bool → Bool
  | .idle, _ => false
  | .precheck, _ => false
  | .charge, _ => true
  | .addrLow, _ => true
  | .addrHigh, _ => true
  | .waitHigh, rx => !rx
  | .measHigh, rx => rx
  | .calc, _ => true

theorem phaseLimit_charge {s : State} (h : s.seq.phase = .charge) : phaseLimit s = s.params.tCharge - 1 := by
  rw [phaseLimit, h]

theorem phaseLimit_addrLow {s : State} (h : s.seq.phase = .addrLow) : phaseLimit s = s.params.tAddrLow - 1 := by
  rw [phaseLimit, h]

theorem phaseLimit_addrHigh {s : State} (h : s.seq.phase = .addrHigh) : phaseLimit s = s.params.tAddrHigh - 1 := by
  rw [phaseLimit, h]

theorem phaseLimit_waitHigh {s : State} (h : s.seq.phase = .waitHigh) : phaseLimit s = waitLimit s := by
  rw [phaseLimit, h]

theorem phaseLimit_measHigh {s : State} (h : s.seq.phase = .measHigh) : phaseLimit s = s.params.tBit := by
  rw [phaseLimit, h]

theorem phaseLimit_calc {s : State} (h : s.seq.phase = .calc) : phaseLimit s = s.params.tCalc - 1 := by
  rw [phaseLimit, h]

theorem busy_of_countsOn {p : Phase} {rx : Bool} (h : countsOn p rx = true) : p ≠ .idle := by
  rintro rfl
  exact Bool.false_ne_true h

/-- The legal timings as far as counting needs them: a phase that counts whatever `rx` is lasts at least one tick, and every
limit fits the 16 bits of `cnt` (spec/00_scope.md R6). -/
structure CountableTimings (p : Params) : Prop where
  charge_pos : 1 ≤ p.tCharge
  charge_le : p.tCharge ≤ 65535
  addrLow_pos : 1 ≤ p.tAddrLow
  addrLow_le : p.tAddrLow ≤ 65535
  addrHigh_pos : 1 ≤ p.tAddrHigh
  addrHigh_le : p.tAddrHigh ≤ 65535
  first_le : p.tFirst ≤ 65535
  bit_le : p.tBit ≤ 65535
  calc_pos : 1 ≤ p.tCalc
  calc_le : p.tCalc ≤ 65535

theorem CountableTimings.of_legal {p : Params} (h : p.legal = true) : CountableTimings p := by
  simp only [Params.legal, Params.timingLegal, Bool.and_eq_true, decide_eq_true_eq] at h
  constructor <;> omega

theorem waitLimit_le {s : State} (h : CountableTimings s.params) : waitLimit s ≤ 65535 := by
  unfold waitLimit
  split
  · exact h.first_le
  · exact h.bit_le

theorem phaseLimit_le {s : State} (hl : s.params.legal = true) : phaseLimit s ≤ 65535 := by
  have h := CountableTimings.of_legal hl
  unfold phaseLimit
  split
  · omega
  · omega
  · exact (Nat.sub_le _ 1).trans h.charge_le
  · exact (Nat.sub_le _ 1).trans h.addrLow_le
  · exact (Nat.sub_le _ 1).trans h.addrHigh_le
  · exact waitLimit_le h
  · exact h.bit_le
  · exact (Nat.sub_le _ 1).trans h.calc_le

/-- Below its limit every counting phase takes one more tick. (The last case of the proof is CALC, whose constructor is a Lean
keyword and so is not named there.) -/
theorem step_counts {p : Phase} {s : State} (h : WorkingIn p s) (hrx : countsOn p (rxAt s 0) = true)
    (hc : s.seq.cnt.toNat ≠ phaseLimit s) : step s = .next (countTick (edgeBase s)) := by
  rw [phaseLimit, h.phase] at hc
  cases p with
  | idle => simp [countsOn] at hrx
  | precheck => simp [countsOn] at hrx
  | charge => rw [step_in_charge h, chargePhase_counts (s := edgeBase s) _ hc]
  | addrLow => rw [step_in_addrLow h, addrLowPhase_counts (s := edgeBase s) hc]
  | addrHigh => rw [step_in_addrHigh h, addrHighPhase_counts (s := edgeBase s) hc]
  | waitHigh =>
    have hlow : rxAt s 0 = false := by simpa [countsOn] using hrx
    rw [step_in_waitHigh h, hlow, waitHighPhase_counts (s := edgeBase s) hc]
  | measHigh =>
    have hhigh : rxAt s 0 = true := hrx
    rw [step_in_measHigh h, hhigh, measHighPhase_counts (s := edgeBase s) hc]
  | _ => rw [step_in_calc h, calcPhase_counts (s := edgeBase s) hc]

/-- A counting phase counts up to its limit: `m` ticks add `m` to `cnt`, and nothing else of the sequencer changes. -/
theorem counting_run {p : Phase} {m : Nat} {s : State} (h : Ready p m s) (hp : p ≠ .idle)
    (hrx : ∀ k < m, countsOn p (rxAt s k) = true) (hc : s.seq.cnt.toNat + m ≤ phaseLimit s) :
    ∃ t, AttemptRun m s t ∧ t.seq = { s.seq with cnt := t.seq.cnt } ∧ t.seq.cnt.toNat = s.seq.cnt.toNat + m := by
  induction m generalizing s with
  | zero => exact ⟨s, .zero (h.phase ▸ hp), rfl, rfl⟩
  | succ m ih =>
    have hstep := step_counts (h.workingIn m.succ_pos) (hrx 0 m.succ_pos) (by omega)
    have hrun : AttemptRun 1 s (countTick (edgeBase s)) :=
      .of_step (h.phase ▸ hp) hstep ⟨h.phase ▸ hp, rfl, rfl, rfl, rfl, rfl⟩
    have hcnt : (s.seq.cnt + 1#16).toNat = s.seq.cnt.toNat + 1 := by
      have := phaseLimit_le h.legal
      bv_omega
    obtain ⟨t, ht, hseq, htc⟩ := ih (s := countTick (edgeBase s))
      (h.mono (Nat.add_comm 1 m).le |>.after hrun h.phase)
      (fun k hk => by rw [rxAt_of_run hrun.ends]; exact hrx _ (by omega))
      (by rw [countTick_cnt]; change (s.seq.cnt + 1#16).toNat + m ≤ phaseLimit s; omega)
    refine ⟨t, Nat.add_comm 1 m ▸ hrun.trans ht, hseq, htc.trans ?_⟩
    rw [countTick_cnt]
    change (s.seq.cnt + 1#16).toNat + m = _
    omega

/-- A phase of `n` ticks that counts whatever `rx` is, from count 0 to its last edge. -/
theorem run_to_last_edge {p : Phase} {n : Nat} {s : State} (h : Ready p n s) (hp : ∀ rx, countsOn p rx = true)
    (hc : s.seq.cnt = 0#16) (hn : 1 ≤ n) (hlimit : phaseLimit s = n - 1) :
    ∃ t, AttemptRun (n - 1) s t ∧ WorkingIn p t ∧ t.seq = { s.seq with cnt := t.seq.cnt } ∧ t.seq.cnt.toNat = n - 1
      ∧ rxAt t 0 = rxAt s (n - 1) := by
  have hcnt : s.seq.cnt.toNat = 0 := by rw [hc]; rfl
  obtain ⟨t, hrun, hseq, ht⟩ :=
    counting_run (h.mono (n.sub_le 1)) (busy_of_countsOn (hp true)) (fun k _ => hp _) (by omega)
  have hlast : Ready p 1 t := Ready.after (by rwa [Nat.sub_add_cancel hn]) hrun (by rw [hseq, h.phase])
  exact ⟨t, hrun, hlast.workingIn one_pos, hseq, by omega, rxAt_of_run hrun.ends 0⟩

end Sys2Proof.Machine
end

section
/-! The transmit frame (spec/40_wire_decoder.md R101 to R106): from the precheck to the start of listening. -/

namespace Sys2Proof.Machine

/-- Listening has just started (spec/40_wire_decoder.md R106). -/
structure Listening (s : State) : Prop where
  phase : s.seq.phase = .waitHigh
  cnt : s.seq.cnt = 0#16
  first : s.seq.first = true
  byten : s.seq.byten = 0
  bitn : s.seq.bitn = 0#3

theorem startListening_listening (s : State) : Listening (startListening s) := ⟨rfl, rfl, rfl, rfl, rfl⟩

/-- `j` address pulses are still to be sent: the next one begins, or for `j = 0` listening. -/
def PulsesLeft : Nat → State → Prop
  | 0, s => Listening s
  | j + 1, s => s.seq.phase = .addrLow ∧ s.seq.cnt = 0#16 ∧ s.seq.pulse.toNat = j + 1

theorem PulsesLeft.busy {j : Nat} {s : State} (h : PulsesLeft j s) : s.seq.phase ≠ .idle := by
  cases j with
  | zero => simp [Listening.phase h]
  | succ j => simp [h.1]

/-- The precheck of a line that is high (R101). -/
theorem precheck_run {s : State} (h : Ready .precheck 1 s) (hrx : rxAt s 0 = true) :
    ∃ t, AttemptRun 1 s t ∧ t.seq.phase = .charge ∧ t.seq.cnt = 0#16 := by
  have hstep := step_in_precheck (h.workingIn one_pos)
  rw [hrx, precheckPhase_high] at hstep
  exact ⟨_, .of_step (by simp [h.phase]) hstep ⟨by simp, rfl, rfl, rfl, rfl, rfl⟩, rfl, rfl⟩

/-- The charge of a line that is high at its last edge (R102, R103). -/
theorem charge_run {P : Params} {s : State} (hP : s.params = P) (h : Ready .charge P.tCharge s)
    (hc : s.seq.cnt = 0#16) (hrx : rxAt s (P.tCharge - 1) = true) :
    ∃ t, AttemptRun P.tCharge s t ∧ PulsesLeft s.cfg.addr.toNat t := by
  subst hP
  have hpos := (CountableTimings.of_legal h.legal).charge_pos
  obtain ⟨u, hrun, hu, -, hcnt, hrx'⟩ := run_to_last_edge h (fun _ => rfl) hc hpos (phaseLimit_charge h.phase)
  rw [← hrun.same.params] at hcnt
  have hstep := step_in_charge hu
  rw [hrx', hrx] at hstep
  by_cases ha : s.cfg.addr = 0#4
  · rw [chargePhase_listens (s := edgeBase u) hcnt (hrun.same.cfg ▸ ha)] at hstep
    refine ⟨_, hrun.last_edge hpos hstep ⟨by simp, rfl, rfl, rfl, rfl, rfl⟩, ?_⟩
    rw [ha]
    exact startListening_listening _
  · rw [chargePhase_addresses (s := edgeBase u) hcnt (hrun.same.cfg ▸ ha)] at hstep
    refine ⟨_, hrun.last_edge hpos hstep ⟨by simp, rfl, rfl, rfl, rfl, rfl⟩, ?_⟩
    obtain ⟨j, hj⟩ := Nat.exists_eq_add_one_of_ne_zero (fun h0 => ha (BitVec.eq_of_toNat_eq h0))
    rw [hj]
    exact ⟨rfl, rfl, (congrArg (·.addr.toNat) hrun.same.cfg).trans hj⟩

/-- The low part of an address pulse (R104). -/
theorem addrLow_run {P : Params} {s : State} (hP : s.params = P) (h : Ready .addrLow P.tAddrLow s)
    (hc : s.seq.cnt = 0#16) :
    ∃ t, AttemptRun P.tAddrLow s t ∧ t.seq = { s.seq with phase := .addrHigh, cnt := 0#16 } := by
  subst hP
  have hpos := (CountableTimings.of_legal h.legal).addrLow_pos
  obtain ⟨u, hrun, hu, hseq, hcnt, -⟩ := run_to_last_edge h (fun _ => rfl) hc hpos (phaseLimit_addrLow h.phase)
  rw [← hrun.same.params] at hcnt
  have hstep := step_in_addrLow hu
  rw [addrLowPhase_ends (s := edgeBase u) hcnt] at hstep
  refine ⟨_, hrun.last_edge hpos hstep ⟨by simp, rfl, rfl, rfl, rfl, rfl⟩, ?_⟩
  change { u.seq with phase := .addrHigh, cnt := 0#16 } = _
  rw [hseq]

/-- The high part of an address pulse, the last one or not (R105). -/
theorem addrHigh_run {P : Params} {j : Nat} {s : State} (hP : s.params = P) (h : Ready .addrHigh P.tAddrHigh s)
    (hc : s.seq.cnt = 0#16) (hp : s.seq.pulse.toNat = j + 1) :
    ∃ t, AttemptRun P.tAddrHigh s t ∧ PulsesLeft j t := by
  subst hP
  have hpos := (CountableTimings.of_legal h.legal).addrHigh_pos
  obtain ⟨u, hrun, hu, hseq, hcnt, -⟩ := run_to_last_edge h (fun _ => rfl) hc hpos (phaseLimit_addrHigh h.phase)
  rw [← hrun.same.params] at hcnt
  have hpulse : u.seq.pulse.toNat = j + 1 := by rw [hseq, hp]
  have hstep := step_in_addrHigh hu
  cases j with
  | zero =>
    rw [addrHighPhase_listens (s := edgeBase u) hcnt (BitVec.eq_of_toNat_eq hpulse)] at hstep
    exact ⟨_, hrun.last_edge hpos hstep ⟨by simp, rfl, rfl, rfl, rfl, rfl⟩, startListening_listening _⟩
  | succ j =>
    have hne : u.seq.pulse ≠ 1#4 := fun h1 => by simp [h1] at hpulse
    rw [addrHighPhase_repeats (s := edgeBase u) hcnt hne] at hstep
    refine ⟨_, hrun.last_edge hpos hstep ⟨by simp, rfl, rfl, rfl, rfl, rfl⟩, rfl, rfl, ?_⟩
    change (u.seq.pulse - 1#4).toNat = j + 1
    bv_omega

/-- The address pulses still to be sent, and then listening starts. -/
theorem addressPulses_run {P : Params} {j : Nat} {s : State} (hP : s.params = P) (hj : PulsesLeft j s)
    (h : Ready s.seq.phase (j * (P.tAddrLow + P.tAddrHigh)) s) :
    ∃ t, AttemptRun (j * (P.tAddrLow + P.tAddrHigh)) s t ∧ Listening t := by
  induction j generalizing s with
  | zero => exact ⟨s, by simpa using AttemptRun.zero hj.busy, hj⟩
  | succ j ih =>
    obtain ⟨hphase, hcnt, hpulse⟩ := hj
    have hticks : (j + 1) * (P.tAddrLow + P.tAddrHigh) =
        P.tAddrLow + (P.tAddrHigh + j * (P.tAddrLow + P.tAddrHigh)) := by ring
    rw [hphase, hticks] at h
    rw [hticks]
    obtain ⟨u, hlow, hu⟩ := addrLow_run hP (h.mono (Nat.le_add_right _ _)) hcnt
    have hPu := hlow.same.params.trans hP
    have hready : Ready .addrHigh _ u := h.after hlow (by rw [hu])
    obtain ⟨v, hhigh, hv⟩ := addrHigh_run hPu (hready.mono (Nat.le_add_right _ _)) (by rw [hu])
      ((congrArg (·.pulse.toNat) hu).trans hpulse)
    obtain ⟨t, hrest, ht⟩ := ih (hhigh.same.params.trans hPu) hv (hready.after hhigh rfl)
    exact ⟨t, hlow.trans (hhigh.trans hrest), ht⟩

/-- The whole frame: from the precheck of a line that passes both checks to the start of listening. -/
theorem frame_run {s : State} (h : Ready .precheck (1 + (s.params.tCharge + addressTicks s)) s)
    (hpre : rxAt s 0 = true) (hcharge : rxAt s s.params.tCharge = true) :
    ∃ t, AttemptRun (1 + (s.params.tCharge + addressTicks s)) s t ∧ Listening t := by
  obtain ⟨u, hrun, hphase, hcnt⟩ := precheck_run (h.mono (Nat.le_add_right _ _)) hpre
  have hu := h.after hrun hphase
  have hlast : rxAt u (s.params.tCharge - 1) = true := by
    rwa [rxAt_of_run hrun.ends, Nat.add_sub_cancel' (CountableTimings.of_legal h.legal).charge_pos]
  obtain ⟨v, hrun', hleft⟩ := charge_run hrun.same.params (hu.mono (Nat.le_add_right _ _)) hcnt hlast
  rw [hrun.same.cfg] at hleft
  obtain ⟨t, hrun'', ht⟩ :=
    addressPulses_run (hrun.same.trans hrun'.same).params hleft (hu.after hrun' rfl)
  exact ⟨t, hrun.trans (hrun'.trans hrun''), ht⟩

end Sys2Proof.Machine
end

section
/-! The packet (spec/40_wire_decoder.md R110 to R115): what each pulse adds to the bits already received, and the whole train
of pulses by induction on the pulses still to come. -/

namespace Sys2Proof.Machine

/-! ### The samples of the line -/

/-- The samples of the coming edges begin with `l`. -/
def Hears (s : State) (l : List Bool) : Prop := ∀ k, ∀ h : k < l.length, rxAt s k = l[k]

theorem Hears.left {s : State} {l l' : List Bool} (h : Hears s (l ++ l')) : Hears s l := by
  intro k hk
  rw [h k (by simp; omega), List.getElem_append_left hk]

theorem Hears.after_run {s t : State} {m : Nat} {l l' : List Bool} (h : Hears s (l ++ l')) (hm : l.length = m)
    (hrun : run m s = .next t) : Hears t l' := by
  intro k hk
  rw [rxAt_of_run hrun, h _ (by simp; omega), List.getElem_append_right (by omega)]
  simp [← hm]

theorem Hears.of_replicate {s : State} {n k : Nat} {b : Bool} (h : Hears s (List.replicate n b)) (hk : k < n) :
    rxAt s k = b := by
  rw [h k (by simpa using hk), List.getElem_replicate]

theorem pulseSamples_cons (p : Pulse) (ps : List Pulse) :
    pulseSamples (p :: ps) = List.replicate p.low false ++ (List.replicate p.high true ++ pulseSamples ps) := by
  simp [pulseSamples]

/-! ### The bits received -/

/-- The bits already received, `8 * byten + bitn` of them, are those of `pkt`: the bytes before number `byten` are stored, and
the upper `bitn` bits of byte number `byten` stand in the low bits of `sh` (spec/40_wire_decoder.md R114). -/
structure Received (pkt : Vector Byte 12) (q : Sequencer) : Prop where
  bytes : ∀ k : Fin 12, k < q.byten → q.pkt[k] = pkt[k]
  bits : ∀ j < q.bitn.toNat, q.sh.getLsbD (q.bitn.toNat - 1 - j) = pkt[q.byten].getLsbD (7 - j)

/-- The number of bits received. -/
def bitsReceived (q : Sequencer) : Nat := 8 * q.byten.val + q.bitn.toNat

/-- The bit of `pkt` that comes after the bits received. -/
def nextBit (pkt : Vector Byte 12) (q : Sequencer) : Bool := pkt[q.byten].getLsbD (7 - q.bitn.toNat)

/-- The pulses `ps` carry the bits of `pkt` from number `i` on; `Carries` is the case `i = 0`. -/
def CarriesFrom (pkt : Vector Byte 12) (i : Nat) (ps : List Pulse) : Prop :=
  ∀ (k : Fin 12) (j : Fin 8) (m : Nat), 8 * k.val + j.val = i + m →
    pkt[k].getLsbD (7 - j.val) = (ps.getD m ⟨0, 0⟩).bit

theorem Carries.carriesFrom {pkt : Vector Byte 12} {ps : List Pulse} (h : Carries ps pkt) : CarriesFrom pkt 0 ps := by
  intro k j m hm
  rw [h k j, hm, Nat.zero_add]

theorem CarriesFrom.tail {pkt : Vector Byte 12} {i : Nat} {p : Pulse} {ps : List Pulse}
    (h : CarriesFrom pkt i (p :: ps)) : CarriesFrom pkt (i + 1) ps := fun k j m hm => by
  rw [h k j (m + 1) (by omega), List.getD_cons_succ]

/-- The first of the pulses still to come carries the next bit. -/
theorem CarriesFrom.next_bit {pkt : Vector Byte 12} {q : Sequencer} {p : Pulse} {ps : List Pulse}
    (h : CarriesFrom pkt (bitsReceived q) (p :: ps)) : p.bit = nextBit pkt q :=
  (h q.byten ⟨q.bitn.toNat, q.bitn.isLt⟩ 0 rfl).symm

/-- After a shift the new bit is bit 0, and the others have moved up by one. -/
theorem shiftIn_getLsbD (sh : Byte) (b : Bool) {j : Nat} (hj : j < 8) :
    (shiftIn sh b).getLsbD j = if j = 0 then b else sh.getLsbD (j - 1) := by
  have h1 : j < 1 ↔ j = 0 := by omega
  simp only [shiftIn, BitVec.getLsbD_append, BitVec.getLsbD_extractLsb', BitVec.getLsbD_ofBool, h1]
  split_ifs with h0
  · simp [h0]
  · simp only [Nat.zero_add, decide_eq_true (show j - 1 < 7 by omega), Bool.true_and]

/-- With one more bit of the packet shifted in, the low bits of the byte are one more of its upper bits. -/
theorem Received.shiftIn_bits {pkt : Vector Byte 12} {q : Sequencer} (h : Received pkt q) {j : Nat}
    (hj : j < q.bitn.toNat + 1) :
    (shiftIn q.sh (nextBit pkt q)).getLsbD (q.bitn.toNat - j) =
      pkt[q.byten].getLsbD (7 - j) := by
  rw [shiftIn_getLsbD _ _ (by omega)]
  split_ifs with h0
  · rw [nextBit, show j = q.bitn.toNat by omega]
  · rw [← h.bits j (by omega), Nat.sub_right_comm]

/-- The eighth bit completes the byte. -/
theorem Received.shiftIn_eq_byte {pkt : Vector Byte 12} {q : Sequencer} (h : Received pkt q) (hb : q.bitn = 7#3) :
    shiftIn q.sh (nextBit pkt q) = pkt[q.byten] := by
  have h7 : q.bitn.toNat = 7 := by rw [hb]; rfl
  refine BitVec.eq_of_getLsbD_eq fun i hi => ?_
  have := h.shiftIn_bits (j := 7 - i) (by omega)
  rwa [show q.bitn.toNat - (7 - i) = i by omega, show 7 - (7 - i) = i by omega] at this

/-- Storing the completed byte extends the stored part of the packet by it. -/
theorem Received.getElem_set {pkt : Vector Byte 12} {q : Sequencer} (h : Received pkt q) {k : Fin 12}
    (hk : k ≤ q.byten) : (q.pkt.set q.byten.val pkt[q.byten] q.byten.isLt)[k] = pkt[k] := by
  rcases hk.eq_or_lt with rfl | hlt
  · exact Vector.getElem_set_self ..
  · exact (Vector.getElem_set_ne _ _ (Fin.val_ne_of_ne hlt.ne')).trans (h.bytes k hlt)

/-- A bit of the packet that is not the last: the next wait begins, with one bit more received. -/
theorem shiftBit_receives {pkt : Vector Byte 12} {s : State} (h : Received pkt s.seq)
    (hlast : bitsReceived s.seq < 95) :
    ∃ q, shiftBit (nextBit pkt s.seq) s = { s with seq := q } ∧ q.phase = .waitHigh
      ∧ q.cnt = 0#16 ∧ q.first = s.seq.first ∧ q.op = s.seq.op ∧ Received pkt q
      ∧ bitsReceived q = bitsReceived s.seq + 1 := by
  unfold bitsReceived at hlast ⊢
  by_cases hb : s.seq.bitn = 7#3
  · have h7 : s.seq.bitn.toNat = 7 := by rw [hb]; rfl
    have hy : s.seq.byten ≠ 11 := fun h11 => by simp [h11, h7] at hlast
    have hnext : (s.seq.byten + 1).val = s.seq.byten.val + 1 := by
      rw [Fin.val_add, Fin.val_one]; omega
    rw [shiftBit_ends_byte _ hb hy, h.shiftIn_eq_byte hb]
    refine ⟨_, rfl, rfl, rfl, rfl, rfl, ⟨fun k hk => h.getElem_set ?_, fun j hj => absurd hj (Nat.not_lt_zero j)⟩, ?_⟩
    · have : k.val < (s.seq.byten + 1).val := hk
      exact Fin.le_def.mpr (by omega)
    · change 8 * (s.seq.byten + 1).val + 0 = _
      omega
  · have hnext : (s.seq.bitn + 1#3).toNat = s.seq.bitn.toNat + 1 := by bv_omega
    rw [shiftBit_within_byte _ hb]
    refine ⟨_, rfl, rfl, rfl, rfl, rfl, ⟨h.bytes, fun j hj => ?_⟩, ?_⟩
    · change j < (s.seq.bitn + 1#3).toNat at hj
      change (shiftIn _ _).getLsbD ((s.seq.bitn + 1#3).toNat - 1 - j) = _
      rw [hnext] at hj ⊢
      exact h.shiftIn_bits hj
    · change 8 * s.seq.byten.val + (s.seq.bitn + 1#3).toNat = _
      omega

/-- The last bit of the packet: the packet is complete and CALC begins. -/
theorem shiftBit_completes {pkt : Vector Byte 12} {s : State} (h : Received pkt s.seq)
    (hlast : bitsReceived s.seq = 95) :
    ∃ q, shiftBit (nextBit pkt s.seq) s = { s with tx := false, seq := q }
      ∧ q.phase = .calc ∧ q.cnt = 0#16 ∧ q.op = s.seq.op ∧ q.pkt = pkt := by
  unfold bitsReceived at hlast
  have hy : s.seq.byten = 11 := Fin.ext (show s.seq.byten.val = 11 by omega)
  have hb : s.seq.bitn = 7#3 := by bv_omega
  rw [shiftBit_ends_packet _ hb hy, h.shiftIn_eq_byte hb]
  refine ⟨_, rfl, rfl, rfl, rfl, Vector.ext fun k hk => h.getElem_set (k := ⟨k, hk⟩) ?_⟩
  rw [hy]
  exact Fin.le_def.mpr (by simp; omega)

/-! ### One pulse -/

/-- A wait of `w` samples of 0 and a pulse of `n` samples of 1 within their limits (R110, R111, R113). -/
theorem pulse_run {w n : Nat} {s : State} (h : Ready .waitHigh (w + n) s) (hc : s.seq.cnt = 0#16)
    (hw : w ≤ waitLimit s) (hn1 : 1 ≤ n) (hn : n ≤ s.params.tBit)
    (hl : Hears s (List.replicate w false ++ List.replicate n true)) :
    ∃ t, AttemptRun (w + n) s t ∧ t.seq.cnt.toNat = n
      ∧ t.seq = { s.seq with phase := .measHigh, first := false, cnt := t.seq.cnt } := by
  obtain ⟨m, rfl⟩ := Nat.exists_eq_add_of_le hn1
  have hc0 : s.seq.cnt.toNat = 0 := by rw [hc]; rfl
  obtain ⟨u, hwait, hu, -⟩ := counting_run (h.mono (Nat.le_add_right _ _)) (by decide)
    (fun k hk => by rw [hl.left.of_replicate hk]; rfl) (by rw [phaseLimit_waitHigh h.phase]; omega)
  have hready : Ready .waitHigh (1 + m) u := h.after hwait (by rw [hu, h.phase])
  have hhigh : Hears u (List.replicate (1 + m) true) := hl.after_run (by simp) hwait.ends
  have hstep := step_in_waitHigh (hready.workingIn (by omega))
  rw [hhigh.of_replicate (by omega), waitHighPhase_high] at hstep
  have hrise := AttemptRun.of_step hwait.same.busy hstep ⟨by simp, rfl, rfl, rfl, rfl, rfl⟩
  have hready' := hready.after (p' := .measHigh) hrise rfl
  obtain ⟨t, hcount, ht, htcnt⟩ := counting_run hready' (by decide)
    (fun k hk => by rw [rxAt_of_run hrise.ends]; exact hhigh.of_replicate (by omega))
    (by rw [phaseLimit_measHigh rfl, hrise.same.params, hwait.same.params]; exact hn)
  exact ⟨t, hwait.trans (hrise.trans hcount), htcnt, by rw [ht, edgeBase_seq, hu]⟩

/-! ### The train of pulses -/

/-- The last sample of pulse `p` has been counted: the bits before it are received, and its own and those of the pulses `ps`
to come are the rest of the packet. -/
structure PulseMeasured (pkt : Vector Byte 12) (p : Pulse) (ps : List Pulse) (s : State) : Prop where
  cnt : s.seq.cnt.toNat = p.high
  first : s.seq.first = false
  received : Received pkt s.seq
  rest : CarriesFrom pkt (bitsReceived s.seq) (p :: ps)
  total : bitsReceived s.seq + (p :: ps).length = 96

/-- The sample of 0 after a pulse shifts in the next bit of the packet. -/
theorem PulseMeasured.step_of_low {pkt : Vector Byte 12} {p : Pulse} {ps : List Pulse} {s : State}
    (hm : PulseMeasured pkt p ps s) (h : WorkingIn .measHigh s) (hrx : rxAt s 0 = false) :
    step s = .next (shiftBit (nextBit pkt s.seq) (edgeBase s)) := by
  have hbit : decide (Config.tThresh < s.seq.cnt.toNat) = nextBit pkt s.seq := by
    rw [hm.cnt, ← hm.rest.next_bit, Pulse.bit]
  rw [step_in_measHigh h, hrx, measHighPhase_low, edgeBase_seq, hbit]

/-- From one pulse to the next: the sample of 0 that ends the first, the rest of the wait, and the second. -/
theorem PulseMeasured.next_run {pkt : Vector Byte 12} {p r : Pulse} {rs : List Pulse} {s : State} {w : Nat}
    (hm : PulseMeasured pkt p (r :: rs) s) (h : Ready .measHigh (1 + (w + r.high)) s)
    (hl : Hears s ([false] ++ (List.replicate w false ++ List.replicate r.high true))) (hw : w ≤ s.params.tBit)
    (hr1 : 1 ≤ r.high) (hr : r.high ≤ s.params.tBit) :
    ∃ t, AttemptRun (1 + (w + r.high)) s t ∧ t.seq.phase = .measHigh ∧ PulseMeasured pkt r rs t := by
  have htotal := hm.total
  rw [List.length_cons, List.length_cons] at htotal
  have hstep := hm.step_of_low (h.workingIn (by omega)) (hl 0 (by simp))
  obtain ⟨q, hq, hphase, hcnt, hfirst, hop, hrec, hbits⟩ :=
    shiftBit_receives (s := edgeBase s) hm.received (show bitsReceived s.seq < 95 by omega)
  rw [edgeBase_seq] at hq hfirst hop hbits
  rw [hq] at hstep
  have hshift := AttemptRun.of_step (by simp [h.phase]) hstep ⟨by simp [hphase], hop, rfl, rfl, rfl, rfl⟩
  have hready := h.after hshift hphase
  obtain ⟨t, hpulse, htcnt, ht⟩ := pulse_run hready hcnt
    (by rw [waitLimit, if_neg (by rw [hfirst, hm.first]; decide), hshift.same.params]; exact hw)
    hr1 (hshift.same.params ▸ hr) (hl.after_run rfl hshift.ends)
  have hsame : bitsReceived t.seq = bitsReceived s.seq + 1 := by rw [ht, ← hbits]; rfl
  refine ⟨t, hshift.trans hpulse, by rw [ht], htcnt, by rw [ht], ?_, ?_, ?_⟩
  · rw [ht]
    exact ⟨hrec.bytes, hrec.bits⟩
  · rw [hsame]
    exact hm.rest.tail
  · rw [hsame, List.length_cons]
    omega

/-- From the end of a pulse to the end of the packet. -/
theorem PulseMeasured.packet_run {pkt : Vector Byte 12} {ps : List Pulse} {p : Pulse} {s : State}
    (hm : PulseMeasured pkt p ps s) (h : Ready .measHigh (pulseSamples ps).length s) (hl : Hears s (pulseSamples ps))
    (hlow : ∀ q ∈ ps, 1 ≤ q.low ∧ q.low ≤ s.params.tBit + 1) (hhigh : ∀ q ∈ ps, 1 ≤ q.high ∧ q.high ≤ s.params.tBit) :
    ∃ t, AttemptRun (pulseSamples ps).length s t ∧ t.seq.phase = .calc ∧ t.seq.cnt = 0#16 ∧ t.seq.pkt = pkt
      ∧ t.tx = false := by
  induction ps generalizing p s with
  | nil =>
    have htotal : bitsReceived s.seq + 1 = 96 := hm.total
    have hstep := hm.step_of_low (h.workingIn one_pos) (hl 0 one_pos)
    obtain ⟨q, hq, hphase, hcnt, hop, hpkt⟩ :=
      shiftBit_completes (s := edgeBase s) hm.received (show bitsReceived s.seq = 95 by omega)
    rw [edgeBase_seq] at hq
    rw [hq] at hstep
    exact ⟨_, .of_step (by simp [h.phase]) hstep ⟨by simp [hphase], hop, rfl, rfl, rfl, rfl⟩, hphase, hcnt, hpkt, rfl⟩
  | cons r rs ih =>
    obtain ⟨hr, hrs⟩ := List.forall_mem_cons.mp hlow
    obtain ⟨hr', hrs'⟩ := List.forall_mem_cons.mp hhigh
    obtain ⟨w, hw⟩ := Nat.exists_eq_add_of_le hr.1
    have hsamples : pulseSamples (r :: rs) =
        ([false] ++ (List.replicate w false ++ List.replicate r.high true)) ++ pulseSamples rs := by
      rw [pulseSamples_cons, hw, List.replicate_add, List.append_assoc, List.append_assoc, List.append_assoc]
      rfl
    have hlength : (pulseSamples (r :: rs)).length = (1 + (w + r.high)) + (pulseSamples rs).length := by
      simp only [hsamples, List.length_append, List.length_replicate, List.length_singleton]
    rw [hsamples] at hl
    rw [hlength] at h ⊢
    obtain ⟨u, hnext, hphase, hu⟩ :=
      hm.next_run (h.mono (Nat.le_add_right _ _)) hl.left (by omega) hr'.1 hr'.2
    obtain ⟨t, hrest, ht⟩ := ih hu (h.after hnext hphase) (hl.after_run (by simp; omega) hnext.ends)
      (by rwa [hnext.same.params]) (by rwa [hnext.same.params])
    exact ⟨t, hnext.trans hrest, ht⟩

/-- From the start of listening, 96 acceptable pulses that carry a packet leave it in the buffer and the block in CALC. -/
theorem Listening.packet_run {pkt : Vector Byte 12} {ps : List Pulse} {s : State} (hs : Listening s)
    (h : Ready .waitHigh (pulseSamples ps).length s) (hps : AcceptablePulses s.params ps) (hpkt : Carries ps pkt)
    (hl : Hears s (pulseSamples ps)) :
    ∃ t, AttemptRun (pulseSamples ps).length s t ∧ t.seq.phase = .calc ∧ t.seq.cnt = 0#16 ∧ t.seq.pkt = pkt
      ∧ t.tx = false := by
  obtain ⟨hlen, hhigh, hfirst, hlow⟩ := hps
  cases ps with
  | nil => simp at hlen
  | cons p ps =>
    obtain ⟨hp, hps⟩ := List.forall_mem_cons.mp hhigh
    rw [pulseSamples_cons, ← List.append_assoc] at hl h ⊢
    rw [List.length_append, show (List.replicate p.low false ++ List.replicate p.high true).length = p.low + p.high by
      simp] at h ⊢
    obtain ⟨u, hpulse, hcnt, hu⟩ := pulse_run (h.mono (Nat.le_add_right _ _)) hs.cnt
      (by rw [waitLimit, if_pos hs.first]; exact hfirst p rfl) hp.1 hp.2 hl.left
    have hbits : bitsReceived u.seq = 0 := by rw [hu, bitsReceived, hs.byten, hs.bitn]; rfl
    have hmeasured : PulseMeasured pkt p ps u := by
      refine ⟨hcnt, by rw [hu], ⟨fun k hk => ?_, fun j hj => ?_⟩, hbits ▸ hpkt.carriesFrom, by rw [hbits, hlen]⟩
      · rw [hu, hs.byten] at hk
        exact absurd hk (Fin.not_lt_zero k)
      · rw [hu, hs.bitn] at hj
        exact absurd hj (Nat.not_lt_zero j)
    obtain ⟨t, hrest, ht⟩ := hmeasured.packet_run (h.after hpulse (by rw [hu])) (hl.after_run (by simp) hpulse.ends)
      (by rwa [hpulse.same.params]) (by rwa [hpulse.same.params])
    exact ⟨t, hpulse.trans hrest, ht⟩

end Sys2Proof.Machine
end

section
/-! The ranges of the level and the volume (spec/41_level_estimator.md R136, spec/42_volume_interpolator.md R152 to R157):
both fit the registers in which a commit stores them. -/

namespace Sys2Proof.Machine

theorem estimateLevel_le (p : Params) (r : Vector Byte 10) (n : Nat) : estimateLevel p r n ≤ n * 4096 :=
  Nat.min_le_right _ _

/-- The level of a commit fits the 16 bits of `LEVEL`. -/
theorem toNat_ofNat_estimateLevel (p : Params) (r : Vector Byte 10) (n : Fin 11) :
    (BitVec.ofNat 16 (estimateLevel p r n.val)).toNat = estimateLevel p r n.val := by
  have := estimateLevel_le p r n.val
  rw [BitVec.toNat_ofNat, Nat.mod_eq_of_lt (by omega)]

/-! ### The search -/

theorem searchPoint_le_length (pts : List CalPoint) (l : Nat) : searchPoint pts l ≤ pts.length :=
  List.findIdx_le_length

theorem pointAt_mem {pts : List CalPoint} {k : Nat} (h : k < pts.length) : pointAt pts k ∈ pts := by
  rw [pointAt, List.getD_eq_getElem _ _ h]
  exact List.getElem_mem h

/-- The entry at which the search stops is above the level. -/
theorem lt_level_searchPoint {pts : List CalPoint} {l : Nat} (h : searchPoint pts l < pts.length) :
    l < (pointAt pts (searchPoint pts l)).level := by
  rw [pointAt, List.getD_eq_getElem _ _ h]
  exact of_decide_eq_true (List.findIdx_getElem (w := h))

/-- The entries before it are not. -/
theorem level_le_of_lt_searchPoint {pts : List CalPoint} {l k : Nat} (h : k < searchPoint pts l) :
    (pointAt pts k).level ≤ l := by
  rw [pointAt, List.getD_eq_getElem _ _ (h.trans_le (searchPoint_le_length pts l))]
  exact not_lt.mp (of_decide_eq_false (List.not_of_lt_findIdx h))

/-! ### The volume -/

/-- The interpolated volume lies within any bounds of the two volumes it lies between. -/
theorem interpolate_mem_Icc {low high : CalPoint} {l a b : Nat} (hlow : low.level ≤ l) (hhigh : l < high.level)
    (hl : a ≤ low.vol ∧ low.vol ≤ b) (hh : a ≤ high.vol ∧ high.vol ≤ b) :
    interpolate low high l ∈ Set.Icc (a : Int) b := by
  unfold interpolate
  dsimp only
  generalize hdl : (l : Int) - low.level = dl
  generalize hdL : (high.level : Int) - low.level = dL
  generalize hdV : (high.vol : Int) - low.vol = dV
  have hdL0 : 0 < dL := by omega
  have below : (a - low.vol : Int) ≤ dl * dV / dL := by
    rw [Int.le_ediv_iff_mul_le hdL0]
    rcases le_total 0 dV with hv | hv <;> nlinarith
  have above : dl * dV / dL ≤ (b - low.vol : Int) := by
    refine Int.ediv_le_of_le_mul hdL0 ?_
    rcases le_total 0 dV with hv | hv <;> nlinarith
  exact ⟨by omega, by omega⟩

/-- The volume before inversion lies within any bounds of the volumes in use. -/
theorem plainVolume_mem_Icc {pts : List CalPoint} {a b : Nat} (hne : pts ≠ [])
    (h : ∀ c ∈ pts, a ≤ c.vol ∧ c.vol ≤ b) (l : Nat) : plainVolume pts l ∈ Set.Icc (a : Int) b := by
  have hpoint : ∀ k < pts.length, ((pointAt pts k).vol : Int) ∈ Set.Icc (a : Int) b := fun k hk => by
    have := h _ (pointAt_mem hk)
    exact ⟨by omega, by omega⟩
  have hpos := List.length_pos_iff.mpr hne
  have hle := searchPoint_le_length pts l
  unfold plainVolume
  dsimp only
  split_ifs with h0 hend
  · exact hpoint 0 hpos
  · exact hpoint _ (by omega)
  · have hj : searchPoint pts l < pts.length := by omega
    exact interpolate_mem_Icc (level_le_of_lt_searchPoint (by omega)) (lt_level_searchPoint hj)
      (h _ (pointAt_mem (by omega))) (h _ (pointAt_mem hj))

/-- The calibration table holds 24-bit volumes. -/
theorem vol_le_of_mem_calPoints {c : HostRegs} {q : CalPoint} (h : q ∈ calPoints c) : q.vol ≤ 16777215 := by
  obtain ⟨k, hk, rfl⟩ := List.getElem_of_mem (List.mem_of_mem_take h)
  rw [List.getElem_zipWith]
  exact Nat.le_of_lt_succ (BitVec.isLt _)

theorem calPoints_length (c : HostRegs) : (calPoints c).length = c.npoints.val := by
  rw [calPoints, List.length_take, List.length_zipWith, Vector.length_toList, Vector.length_toList]
  omega

/-- Every estimated volume is a 25-bit signed number (R156). -/
theorem estimateVolume_mem_Icc (c : HostRegs) (lv inv : Bool) (l : Nat) :
    (estimateVolume lv l (calPoints c) inv).2 ∈ Set.Icc (-16777215 : Int) 16777215 := by
  unfold estimateVolume
  split_ifs with h0 hinv
  · decide
  all_goals
    have hne : calPoints c ≠ [] := fun h => h0 (.inr (by rw [h]; rfl))
    obtain ⟨h1, h2⟩ := plainVolume_mem_Icc (a := 0) hne
      (fun q hq => ⟨Nat.zero_le _, vol_le_of_mem_calPoints hq⟩) l
    have hlast := vol_le_of_mem_calPoints
      (pointAt_mem (k := (calPoints c).length - 1) (Nat.sub_one_lt_of_lt (List.length_pos_iff.mpr hne)))
    exact ⟨by push_cast at *; omega, by push_cast at *; omega⟩

/-- The volume of a commit fits the 32 bits of `VOLUME`. -/
theorem toInt_ofInt_estimateVolume (c : HostRegs) (lv inv : Bool) (l : Nat) :
    (BitVec.ofInt 32 (estimateVolume lv l (calPoints c) inv).2).toInt = (estimateVolume lv l (calPoints c) inv).2 := by
  obtain ⟨h1, h2⟩ := estimateVolume_mem_Icc c lv inv l
  exact BitVec.toInt_ofInt_eq_self (by decide) (by norm_num; omega) (by norm_num; omega)

/-- With a level, the volume is valid when there is a point in use. -/
theorem estimateVolume_valid (c : HostRegs) (inv : Bool) (l : Nat) :
    (estimateVolume true l (calPoints c) inv).1 = decide (0 < c.npoints.val) := by
  rcases Nat.eq_zero_or_pos c.npoints.val with h | h
  · simp [estimateVolume, calPoints_length, h]
  · cases inv <;> simp [estimateVolume, calPoints_length, h, h.ne']

end Sys2Proof.Machine
end

section
/-! A whole READ (spec/43_orchestrator_and_commands.md R172 to R176): its acceptance, the attempt up to the last edge of CALC
and the commit. -/

namespace Sys2Proof.Machine

/-- An accepted command is accepted by an idle block at an edge without reset. -/
theorem idle_of_acceptedCommand {s : State} {c : Instr} (h : acceptedCommand s = some c) :
    (nextInputs s).rst = false ∧ s.seq.phase = .idle := by
  unfold acceptedCommand at h
  dsimp only at h
  split at h
  · rename_i ha
    exact ⟨ha.1, ha.2.1⟩
  · simp at h

/-- The step that accepts a command is the command's effect and what every edge does. -/
theorem step_of_acceptedCommand {s : State} {c : Instr} (hl : s.params.legal = true)
    (h : acceptedCommand s = some c) : ∃ u, exec c s = .next u ∧ step s = .next (advance u) := by
  obtain ⟨hr, hp⟩ := idle_of_acceptedCommand h
  obtain ⟨t, ht⟩ := idleEdge_isNext (nextInputs s) s
  rw [← step_of_idle hl hr hp] at ht
  rcases step_next_of_idle hr hp ht with ⟨c', u, hc', hu, rfl⟩ | ⟨hn, -⟩
  · obtain rfl : c = c' := Option.some.inj (h.symm.trans hc')
    exact ⟨u, hu, ht⟩
  · simp [h] at hn

/-- A READ that passes the rate gate starts an attempt. -/
theorem step_of_startsAttempt {s : State} (h : StartsAttempt s) : step s = .next (advance (startAttempt s)) := by
  obtain ⟨hl, hc, hgate⟩ := h
  obtain ⟨u, hu, ht⟩ := step_of_acceptedCommand hl hc
  obtain rfl : startAttempt s = u := by simpa [exec, execRead, Nat.not_lt.mpr hgate] using hu
  exact ht

/-- The number of edges from the precheck edge of an attempt to the last edge of CALC, when the packet has `w` samples
(spec/40_wire_decoder.md R124, spec/70_reset_and_hazards.md R248). -/
def edgesToCommit (s : State) (w : Nat) : Nat := 1 + (s.params.tCharge + addressTicks s) + (w + (s.params.tCalc - 1))

/-- From the precheck of a line that passes both checks and then carries a packet to the last edge of CALC. -/
theorem attempt_run {s : State} {ps : List Pulse} {pkt : Vector Byte 12}
    (h : Ready .precheck (edgesToCommit s (pulseSamples ps).length + 1) s)
    (hpre : rxAt s 0 = true) (hcharge : rxAt s s.params.tCharge = true) (hps : AcceptablePulses s.params ps)
    (hpkt : Carries ps pkt)
    (hl : ∀ k < (pulseSamples ps).length,
      some (rxAt s (1 + (s.params.tCharge + addressTicks s) + k)) = (pulseSamples ps)[k]?) :
    ∃ t, AttemptRun (edgesToCommit s (pulseSamples ps).length) s t ∧ WorkingIn .calc t
      ∧ t.seq.cnt.toNat = t.params.tCalc - 1 ∧ t.seq.pkt = pkt := by
  have hpos := (CountableTimings.of_legal h.legal).calc_pos
  unfold edgesToCommit at h ⊢
  rw [Nat.add_assoc (1 + _), Nat.add_assoc (pulseSamples ps).length, Nat.sub_add_cancel hpos] at h
  obtain ⟨u, hframe, hu⟩ := frame_run (h.mono (Nat.le_add_right _ _)) hpre hcharge
  have hready := h.after hframe hu.phase
  have hhears : Hears u (pulseSamples ps) := fun k hk => by
    have := hl k hk
    rw [List.getElem?_eq_getElem hk] at this
    rw [rxAt_of_run hframe.ends]
    exact Option.some.inj this
  obtain ⟨v, hpacket, hphase, hcnt, hv, -⟩ :=
    hu.packet_run (hready.mono (Nat.le_add_right _ _)) (hframe.same.params ▸ hps) hpkt hhears
  have hparams := (hframe.same.trans hpacket.same).params
  obtain ⟨t, hcalc, hwork, ht, hlast, -⟩ := run_to_last_edge (hready.after hpacket hphase) (fun _ => rfl) hcnt hpos
    (by rw [phaseLimit_calc hphase, hparams])
  exact ⟨t, hframe.trans (hpacket.trans hcalc), hwork, by rw [hlast, hcalc.same.params, hparams], by rw [ht, hv]⟩

/-! ### The commit -/

/-- The step that commits a READ. -/
theorem step_commits {s : State} (h : WorkingIn .calc s) (hc : s.seq.cnt.toNat = s.params.tCalc - 1)
    (ho : s.seq.op = .read) : step s = .next (readCommit (edgeBase s)) := by
  rw [step_in_calc h, calcPhase_read (s := edgeBase s) hc ho]

/-- Whatever the checksum says, the commit ends the attempt and keeps the checksum pair. -/
theorem readCommit_exit (s : State) :
    let t := readCommit s
    t.seq.phase = .idle ∧ t.tx = false ∧ t.done = true ∧ t.idleUs = 0#24 ∧ t.cfg = s.cfg
      ∧ t.res.csExp = checksumField s.seq.pkt ∧ t.res.csAct = payloadSum s.seq.pkt ∧ t.res.csv = true := by
  cases h : checksumMatches s.seq.pkt with
  | true =>
    rw [readCommit_matching h]
    exact ⟨rfl, rfl, rfl, rfl, rfl, rfl, rfl, rfl⟩
  | false =>
    rw [readCommit_mismatching h]
    exact ⟨rfl, rfl, rfl, rfl, rfl, rfl, rfl, rfl⟩

/-- The results of a packet whose checksum matches, as numbers. -/
theorem readCommit_res_of_match {s : State} (h : checksumMatches s.seq.pkt = true) :
    let r := (readCommit s).res
    r.seg = payload s.seq.pkt ∧ r.segValid = true ∧ r.err = 0#3 ∧ r.levelValid = true
      ∧ r.level.toNat = estimateLevel s.params (payload s.seq.pkt) s.cfg.segcnt.val
      ∧ r.volValid = decide (0 < s.cfg.npoints.val)
      ∧ r.volume.toInt = (estimateVolume true r.level.toNat (calPoints s.cfg) s.cfg.invert).2 := by
  have hlevel := toNat_ofNat_estimateLevel s.params (payload s.seq.pkt) s.cfg.segcnt
  rw [readCommit_matching h, successCommit_res]
  refine ⟨rfl, rfl, rfl, rfl, hlevel, estimateVolume_valid _ _ _, ?_⟩
  rw [Results.succeeded, withLevel_volume, withLevel_level, toInt_ofInt_estimateVolume, hlevel]

/-- The results of a packet whose checksum does not match: no byte of it. -/
theorem readCommit_res_of_mismatch {s : State} (h : checksumMatches s.seq.pkt = false) :
    let r := (readCommit s).res
    r.seg = Vector.replicate 10 0#8 ∧ r.segValid = false ∧ r.err = 5#3 ∧ r.level = 0#16 ∧ r.levelValid = false
      ∧ r.volume = 0#32 ∧ r.volValid = false := by
  rw [readCommit_mismatching h, errorExit_res_checksumMismatch]
  exact ⟨rfl, rfl, rfl, rfl, rfl, rfl, rfl⟩

/-- The commit edge of a READ is `edgesToCommit` edges after its precheck edge. -/
theorem edges_of_read {s : State} (h : s.params.legal = true) (w : Nat) :
    stepsToListening s + w + s.params.tCalc = 1 + (edgesToCommit s w + 1) := by
  have := (CountableTimings.of_legal h).calc_pos
  rw [stepsToListening, edgesToCommit]
  omega

/-- Settles O30: one edge of acceptance, the run of the attempt, and one edge of commit. -/
theorem readOfAPacketCommits : Obligations.ReadOfAPacketCommits := by
  rintro s ps pkt n hstart ⟨hpre, hcharge⟩ hps hpkt hl rfl hreset
  rw [edges_of_read hstart.1] at hreset ⊢
  have haccept : run 1 s = .next (advance (startAttempt s)) := run_succ_of_step (step_of_startsAttempt hstart) 0
  have hrx := rxAt_of_run haccept
  obtain ⟨u, hrun, hwork, hcnt, rfl⟩ := attempt_run (s := advance (startAttempt s))
    ⟨hstart.1, rfl, hreset.after_run haccept⟩ ((hrx 0).trans hpre) ((hrx _).trans hcharge) hps hpkt
    (fun k hk => by
      rw [hrx, ← hl k hk, stepsToListening]
      congr 2
      change 1 + (1 + (s.params.tCharge + addressTicks s) + k) = _
      omega)
  have hcommit := step_commits hwork hcnt hrun.same.op
  refine ⟨fun k hk h1 => ?_, readCommit (edgeBase u), ?_, ?_⟩
  · obtain ⟨j, rfl⟩ := Nat.exists_eq_add_of_le h1
    obtain ⟨v, hv, hsame⟩ := hrun.during j (by change j ≤ edgesToCommit s _; omega)
    exact ⟨v, (run_add haccept j).trans hv, hsame.busy, hsame.done, hsame.res⟩
  · rw [run_add haccept]
    exact (run_add hrun.ends 1).trans (run_succ_of_step hcommit 0)
  · have hcfg : (edgeBase u).cfg = s.cfg := hrun.same.cfg
    have hparams : (edgeBase u).params = s.params := hrun.same.params
    obtain ⟨hphase, htx, hdone, hidle, hcfg', hexp, hact, hcsv⟩ := readCommit_exit (edgeBase u)
    refine ⟨hphase, htx, hdone, hidle, hcfg'.trans hcfg, hexp, hact, hcsv, fun hm => ?_, fun hm => ?_⟩
    · simpa only [hcfg, hparams, edgeBase_seq] using readCommit_res_of_match (s := edgeBase u) hm
    · exact readCommit_res_of_mismatch (s := edgeBase u) hm

end Sys2Proof.Machine
end

section
/-! The volume interpolator outside the interpolated part (spec/42_volume_interpolator.md R151 to R155): the cases decided
before the search, where the search stops, and the clamps at both ends of the table. -/

namespace Sys2Proof.Machine

/-! ### The first and the last entry -/

theorem pointAt_zero {pts : List CalPoint} (h : pts ≠ []) : pointAt pts 0 = pts.head h := by
  rw [pointAt, List.getD_eq_getElem _ _ (List.length_pos_iff.mpr h), List.head_eq_getElem]

theorem pointAt_last {pts : List CalPoint} (h : pts ≠ []) : pointAt pts (pts.length - 1) = pts.getLast h := by
  rw [pointAt, List.getD_eq_getElem _ _ (Nat.sub_one_lt_of_lt (List.length_pos_iff.mpr h)), List.getLast_eq_getElem]

/-! ### The search at both ends -/

theorem searchPoint_eq_zero {pts : List CalPoint} {l : Nat} (hne : pts ≠ []) (h : l < (pts.head hne).level) :
    searchPoint pts l = 0 := by
  by_contra hpos
  have hle : (pointAt pts 0).level ≤ l := level_le_of_lt_searchPoint (Nat.pos_of_ne_zero hpos)
  rw [pointAt_zero hne] at hle
  exact absurd h (not_lt.mpr hle)

theorem searchPoint_eq_length {pts : List CalPoint} {l : Nat} (h : ∀ c ∈ pts, c.level ≤ l) :
    searchPoint pts l = pts.length := by
  by_contra hne
  have hlt : searchPoint pts l < pts.length := lt_of_le_of_ne (searchPoint_le_length pts l) hne
  exact absurd (lt_level_searchPoint hlt) (not_lt.mpr (h _ (pointAt_mem hlt)))

/-! ### The volume at both ends -/

theorem plainVolume_below {pts : List CalPoint} {l : Nat} (hne : pts ≠ []) (h : l < (pts.head hne).level) :
    plainVolume pts l = (pts.head hne).vol := by
  simp only [plainVolume, searchPoint_eq_zero hne h, if_true, pointAt_zero hne]

theorem plainVolume_atOrAbove {pts : List CalPoint} {l : Nat} (hne : pts ≠ []) (h : ∀ c ∈ pts, c.level ≤ l) :
    plainVolume pts l = (pts.getLast hne).vol := by
  simp only [plainVolume, searchPoint_eq_length h, mt List.length_eq_zero_iff.mp hne, if_false, if_true,
    pointAt_last hne]

/-- Both clamps of a table of one point are its volume. -/
theorem plainVolume_singleton (c : CalPoint) (l : Nat) : plainVolume [c] l = c.vol := by
  rcases Nat.lt_or_ge l c.level with h | h
  · exact plainVolume_below (List.cons_ne_nil c []) h
  · exact plainVolume_atOrAbove (List.cons_ne_nil c []) (by simpa using h)

/-! ### The estimate by its cases -/

@[simp] theorem estimateVolume_undefined (l : Nat) (pts : List CalPoint) (inv : Bool) :
    estimateVolume false l pts inv = (false, 0) :=
  if_pos (.inl rfl)

@[simp] theorem estimateVolume_nil (lv : Bool) (l : Nat) (inv : Bool) : estimateVolume lv l [] inv = (false, 0) :=
  if_pos (.inr rfl)

theorem estimateVolume_plain {pts : List CalPoint} (hne : pts ≠ []) (l : Nat) :
    estimateVolume true l pts false = (true, plainVolume pts l) := by
  simp [estimateVolume, hne]

theorem estimateVolume_inverted {pts : List CalPoint} (hne : pts ≠ []) (l : Nat) :
    estimateVolume true l pts true = (true, (pts.getLast hne).vol - plainVolume pts l) := by
  simp [estimateVolume, hne, pointAt_last hne]

/-- Where the volume is clamped to the last entry's, inversion against that entry gives 0. -/
theorem estimateVolume_inverted_eq_zero {pts : List CalPoint} (hne : pts ≠ []) {l : Nat}
    (h : plainVolume pts l = (pts.getLast hne).vol) : estimateVolume true l pts true = (true, 0) := by
  rw [estimateVolume_inverted hne, h, sub_self]

/-! ### The obligations -/

/-- Settles O52, from what the search says of the entry at which it stops and of those before it. -/
theorem searchStopsAtTheFirstExceedingLevel : Obligations.SearchStopsAtTheFirstExceedingLevel := by
  intro pts l
  refine ⟨searchPoint_le_length pts l, fun k => level_le_of_lt_searchPoint, lt_level_searchPoint, fun hpos hlt => ?_⟩
  have hlow : (pointAt pts (searchPoint pts l - 1)).level ≤ l := level_le_of_lt_searchPoint (Nat.sub_one_lt_of_lt hpos)
  exact hlow.trans_lt (lt_level_searchPoint hlt)

/-- Settles O51, one equation of `estimateVolume` per case. -/
theorem volumeCasesBeforeTheSearch : Obligations.VolumeCasesBeforeTheSearch := by
  refine ⟨estimateVolume_undefined, estimateVolume_nil, fun l pts hne => ?_, fun l c => ?_⟩
  · rw [estimateVolume_plain hne, estimateVolume_inverted hne]
    exact ⟨rfl, rfl, rfl⟩
  · have hne : [c] ≠ [] := List.cons_ne_nil c []
    have hvol : plainVolume [c] l = c.vol := plainVolume_singleton c l
    exact ⟨by rw [estimateVolume_plain hne, hvol], estimateVolume_inverted_eq_zero hne hvol⟩

/-- Settles O55: below the first entry the search stops at once, and at or above every level it runs to the end. -/
theorem volumeClampsOutsideTheTable : Obligations.VolumeClampsOutsideTheTable := by
  intro pts l hne
  refine ⟨fun hbelow => ?_, fun habove => ?_⟩
  · rw [estimateVolume_plain hne, plainVolume_below hne hbelow]
  · have hvol := plainVolume_atOrAbove hne habove
    exact ⟨by rw [estimateVolume_plain hne, hvol], estimateVolume_inverted_eq_zero hne hvol⟩

end Sys2Proof.Machine
end

section
/-! What the sequencer can do at an edge of a busy block (spec/40_wire_decoder.md R100 to R118,
spec/43_orchestrator_and_commands.md R180, R206), said once: it goes on, it raises an error, or it commits. -/

namespace Sys2Proof.Machine

/-- The attempt or CALC goes on from `s` to `t`, and the flags and the pacing counter stay as they are. -/
structure GoesOn (s t : State) : Prop extends SameAttempt s t where
  ovr : t.ovr = s.ovr
  ill : t.ill = s.ill
  idleUs : t.idleUs = s.idleUs

theorem countTick_goesOn {s : State} (hs : s.seq.phase ≠ .idle) : GoesOn s (countTick s) :=
  ⟨⟨hs, rfl, rfl, rfl, rfl, rfl⟩, rfl, rfl, rfl⟩

theorem enterPhase_goesOn {p : Phase} (hp : p ≠ .idle) (v : Bool) (c : BitVec 16) (s : State) :
    GoesOn s (enterPhase p v c s) :=
  ⟨⟨hp, rfl, rfl, rfl, rfl, rfl⟩, rfl, rfl, rfl⟩

theorem startListening_goesOn (s : State) : GoesOn s (startListening s) :=
  ⟨⟨by simp, rfl, rfl, rfl, rfl, rfl⟩, rfl, rfl, rfl⟩

theorem shiftBit_goesOn (b : Bool) (s : State) : GoesOn s (shiftBit b s) := by
  by_cases hb : s.seq.bitn = 7#3
  · by_cases hy : s.seq.byten = 11
    · rw [shiftBit_ends_packet b hb hy]
      exact ⟨⟨by simp, rfl, rfl, rfl, rfl, rfl⟩, rfl, rfl, rfl⟩
    · rw [shiftBit_ends_byte b hb hy]
      exact ⟨⟨by simp, rfl, rfl, rfl, rfl, rfl⟩, rfl, rfl, rfl⟩
  · rw [shiftBit_within_byte b hb]
    exact ⟨⟨by simp, rfl, rfl, rfl, rfl, rfl⟩, rfl, rfl, rfl⟩

/-- What an edge before CALC can do: go on, or raise an error. -/
def GoesOnOrFails (s t : State) : Prop := GoesOn s t ∨ ∃ e, t = errorExit e s

theorem precheckPhase_goesOnOrFails (rx : Bool) (s : State) : GoesOnOrFails s (precheckPhase rx s) := by
  cases rx with
  | false => exact .inr ⟨.interfaceFault, rfl⟩
  | true => exact .inl (enterPhase_goesOn (p := .charge) (by decide) true 0#16 s)

theorem chargePhase_goesOnOrFails (rx : Bool) {s : State} (hs : s.seq.phase ≠ .idle) :
    GoesOnOrFails s (chargePhase rx s) := by
  unfold chargePhase
  split_ifs
  · exact .inr ⟨_, rfl⟩
  · exact .inl (startListening_goesOn s)
  · exact .inl ⟨⟨by simp, rfl, rfl, rfl, rfl, rfl⟩, rfl, rfl, rfl⟩
  · exact .inl (countTick_goesOn hs)

theorem addrLowPhase_goesOn {s : State} (hs : s.seq.phase ≠ .idle) : GoesOn s (addrLowPhase s) := by
  unfold addrLowPhase
  split_ifs
  · exact enterPhase_goesOn (by decide) _ _ s
  · exact countTick_goesOn hs

theorem addrHighPhase_goesOn {s : State} (hs : s.seq.phase ≠ .idle) : GoesOn s (addrHighPhase s) := by
  unfold addrHighPhase
  split_ifs
  · exact ⟨⟨by simp, rfl, rfl, rfl, rfl, rfl⟩, rfl, rfl, rfl⟩
  · exact ⟨⟨by simp, rfl, rfl, rfl, rfl, rfl⟩, rfl, rfl, rfl⟩
  · exact countTick_goesOn hs

theorem waitHighPhase_goesOnOrFails (rx : Bool) {s : State} (hs : s.seq.phase ≠ .idle) :
    GoesOnOrFails s (waitHighPhase rx s) := by
  unfold waitHighPhase
  split_ifs
  · exact .inl ⟨⟨by simp, rfl, rfl, rfl, rfl, rfl⟩, rfl, rfl, rfl⟩
  · exact .inr ⟨_, rfl⟩
  · exact .inr ⟨_, rfl⟩
  · exact .inl (countTick_goesOn hs)

theorem measHighPhase_goesOnOrFails (rx : Bool) {s : State} (hs : s.seq.phase ≠ .idle) :
    GoesOnOrFails s (measHighPhase rx s) := by
  unfold measHighPhase
  split_ifs
  · exact .inl (shiftBit_goesOn _ s)
  · exact .inr ⟨_, rfl⟩
  · exact .inl (countTick_goesOn hs)

/-- The exits of CALC (spec/43_orchestrator_and_commands.md R180), by the command in flight. -/
def CalcExit (s t : State) : Prop :=
  (s.seq.op = .read ∧ (t = successCommit s ∨ t = errorExit .checksumMismatch s)) ∨
    (s.seq.op = .level ∧ t = levelCommit s) ∨ (s.seq.op = .volume ∧ t = volumeCommit s)

theorem calcPhase_goesOn_or_exits {s t : State} (hs : s.seq.phase ≠ .idle) (h : calcPhase s = .next t) :
    GoesOn s t ∨ CalcExit s t := by
  rcases calcPhase_next h with ⟨-, rfl⟩ | ⟨-, ⟨ho, -, rfl⟩ | ⟨ho, -, rfl⟩ | ⟨ho, rfl⟩ | ⟨ho, rfl⟩⟩
  · exact .inl (countTick_goesOn hs)
  · exact .inr (.inl ⟨ho, .inl rfl⟩)
  · exact .inr (.inl ⟨ho, .inr rfl⟩)
  · exact .inr (.inr (.inl ⟨ho, rfl⟩))
  · exact .inr (.inr (.inr ⟨ho, rfl⟩))

/-- What the sequencer can do in a busy block, before CALC and in CALC. -/
theorem sequencer_next_of_busy {rx : Bool} {s t : State} (hs : s.seq.phase ≠ .idle) (h : sequencer rx s = .next t) :
    GoesOn s t ∨ (s.seq.phase ≠ .calc ∧ ∃ e, t = errorExit e s) ∨ (s.seq.phase = .calc ∧ CalcExit s t) := by
  have early {u : State} (hp : s.seq.phase ≠ .calc) (hu : GoesOnOrFails s u) :
      GoesOn s u ∨ (s.seq.phase ≠ .calc ∧ ∃ e, u = errorExit e s) ∨ (s.seq.phase = .calc ∧ CalcExit s u) :=
    hu.imp id fun he => .inl ⟨hp, he⟩
  rcases sequencer_next h with
    ⟨hp, -⟩ | ⟨hp, rfl⟩ | ⟨hp, rfl⟩ | ⟨hp, rfl⟩ | ⟨hp, rfl⟩ | ⟨hp, rfl⟩ | ⟨hp, rfl⟩ | ⟨hp, hc⟩
  · exact absurd hp hs
  · exact early (by simp [hp]) (precheckPhase_goesOnOrFails rx s)
  · exact early (by simp [hp]) (chargePhase_goesOnOrFails rx hs)
  · exact .inl (addrLowPhase_goesOn hs)
  · exact .inl (addrHighPhase_goesOn hs)
  · exact early (by simp [hp]) (waitHighPhase_goesOnOrFails rx hs)
  · exact early (by simp [hp]) (measHighPhase_goesOnOrFails rx hs)
  · exact (calcPhase_goesOn_or_exits hs hc).imp id fun he => .inr ⟨hp, he⟩

/-- No sequencer rule writes the sticky flags. -/
theorem sequencer_keeps_flags {rx : Bool} {s t : State} (hs : s.seq.phase ≠ .idle) (h : sequencer rx s = .next t) :
    t.ovr = s.ovr ∧ t.ill = s.ill := by
  rcases sequencer_next_of_busy hs h with
    hg | ⟨-, e, rfl⟩ | ⟨-, ⟨-, rfl | rfl⟩ | ⟨-, rfl⟩ | ⟨-, rfl⟩⟩
  · exact ⟨hg.ovr, hg.ill⟩
  all_goals exact ⟨rfl, rfl⟩

/-- The sequencer clears the pacing counter when it ends an attempt, and does not touch it otherwise. -/
theorem sequencer_idleUs {rx : Bool} {s t : State} (hs : s.seq.phase ≠ .idle) (h : sequencer rx s = .next t) :
    t.idleUs = if t.seq.phase = .idle ∧ (s.seq.phase = .calc → s.seq.op = .read) then 0#24 else s.idleUs := by
  rcases sequencer_next_of_busy hs h with
    hg | ⟨hp, e, rfl⟩ | ⟨hp, ⟨ho, rfl | rfl⟩ | ⟨ho, rfl⟩ | ⟨ho, rfl⟩⟩
  · rw [if_neg fun hi => hg.busy hi.1, hg.idleUs]
  · rw [if_pos ⟨rfl, fun hc => absurd hc hp⟩, errorExit_idleUs]
  · rw [if_pos ⟨rfl, fun _ => ho⟩, successCommit_idleUs]
  · rw [if_pos ⟨rfl, fun _ => ho⟩, errorExit_idleUs]
  · rw [if_neg (by simp [hp, ho]), levelCommit_idleUs]
  · rw [if_neg (by simp [hp, ho]), volumeCommit_idleUs]

end Sys2Proof.Machine
end

section
/-! The pacing counter (spec/43_orchestrator_and_commands.md R177), and the commands that end at their acceptance edge: NOP
(R171), the RateLimited READ (R173, spec/60_exceptions.md R207) and CLEAR (R181). -/

namespace Sys2Proof.Machine

/-! ### The pacing counter -/

theorem exec_keeps_idleUs {c : Instr} {s t : State} (h : exec c s = .next t) : t.idleUs = s.idleUs := by
  rcases exec_next h with ⟨-, rfl⟩ | ⟨-, -, rfl⟩ | ⟨-, -, rfl⟩ | ⟨-, rfl⟩ | ⟨-, rfl⟩ | ⟨-, rfl⟩ <;> rfl

/-- At an idle edge only `advance` writes the pacing counter. -/
theorem step_idleUs_of_idle {s t : State} (hr : (nextInputs s).rst = false) (hp : s.seq.phase = .idle)
    (h : step s = .next t) : t.idleUs = pacingNext s.idleUs := by
  rcases step_next_of_idle hr hp h with ⟨c, u, -, hx, rfl⟩ | ⟨-, rfl | rfl | ⟨r, w, rfl⟩⟩
  · rw [advance_idleUs, exec_keeps_idleUs hx]
  all_goals rfl

/-- Settles O38: an idle edge counts, and a busy edge counts in `edgeBase` before the sequencer ends an attempt or not. -/
theorem pacingCounterCountsFromTheLastAttempt : Obligations.PacingCounterCountsFromTheLastAttempt := by
  intro s t hr h
  by_cases hp : s.seq.phase = .idle
  · rw [if_neg fun hc => hc.1 hp, step_idleUs_of_idle hr hp h, pacingNext_toNat]
  · rw [step_of_busy (step_next h).1 hr hp] at h
    rw [sequencer_idleUs (s := edgeBase s) hp h, edgeBase_seq, ← pacingNext_toNat]
    simp only [ne_eq, hp, not_false_eq_true, true_and]
    split_ifs <;> rfl

/-! ### A write at a busy edge -/

/-- A write at a busy edge sets `OVR`, whatever word it writes, and leaves `ILL`. -/
theorem flags_of_dropped_write {s t : State} (hr : (nextInputs s).rst = false) (hp : s.seq.phase ≠ .idle)
    (hw : (nextInputs s).isWrite = true) (h : step s = .next t) : t.ovr = true ∧ t.ill = s.ill := by
  rw [step_of_busy (step_next h).1 hr hp] at h
  obtain ⟨hovr, hill⟩ := sequencer_keeps_flags (s := edgeBase s) hp h
  refine ⟨hovr.trans ?_, hill⟩
  change (s.ovr || (nextInputs s).isWrite) = true
  rw [hw, Bool.or_true]

/-! ### The commands -/

theorem exec_nop (s : State) : exec .nop s = .next s := rfl

theorem exec_level (s : State) : exec .level s = .next (startCalc .level s) := rfl

theorem exec_volume (s : State) : exec .volume s = .next (startCalc .volume s) := rfl

theorem exec_clear (s : State) : exec .clear s = .next { s with done := false, ovr := false, ill := false } := rfl

theorem exec_read_of_lt {s : State} (h : s.idleUs.toNat < s.cfg.minPause.toNat) :
    exec .read s = .next (rateLimitedExit s) :=
  if_pos h

/-- The step that accepts a command whose effect is known. -/
theorem step_of_exec {s u : State} {c : Instr} (hl : s.params.legal = true) (hc : acceptedCommand s = some c)
    (hx : exec c s = .next u) : step s = .next (advance u) := by
  obtain ⟨v, hv, hstep⟩ := step_of_acceptedCommand hl hc
  obtain rfl : v = u := by simpa using hv.symm.trans hx
  exact hstep

/-- Settles O6, by the effect of NOP at an idle edge and of every write at a busy one. -/
theorem nopDoesNothing : Obligations.NopDoesNothing :=
  ⟨fun s _ => exec_nop s, fun s hl hc => step_of_exec hl hc (exec_nop s),
    fun _ _ _ hr hp hw _ _ h => (flags_of_dropped_write hr hp hw h).1⟩

/-- Settles O8: `rateLimitedExit` is the whole effect, and it writes neither the pin, the sequencer nor the counter. -/
theorem readTooSoonIsRateLimited : Obligations.ReadTooSoonIsRateLimited := by
  refine ⟨fun s _ hlt => exec_read_of_lt hlt, fun s t hl hc hlt h => ?_⟩
  obtain rfl : advance (rateLimitedExit s) = t := by
    simpa using (step_of_exec hl hc (exec_read_of_lt hlt)).symm.trans h
  exact ⟨rfl, rfl, pacingNext_toNat s.idleUs⟩

/-- Settles O11, by the effect of CLEAR at an idle edge and of every write at a busy one. -/
theorem clearClearsThreeFlags : Obligations.ClearClearsThreeFlags :=
  ⟨fun s _ => exec_clear s, fun _ _ _ hr hp hw _ _ h => flags_of_dropped_write hr hp hw h⟩

end Sys2Proof.Machine
end

section
/-! The commits: a successful READ's (spec/43_orchestrator_and_commands.md R175), and LEVEL and VOLUME from their acceptance
to the last edge of CALC (R178 to R180). -/

namespace Sys2Proof.Machine

/-! ### READ -/

theorem payload_getElem (pkt : Vector Byte 12) (i : Fin 10) : (payload pkt)[i] = pkt[2 + i.val] := by
  simp [payload]

/-- Settles O25: the commit is `successCommit` on `edgeBase`, its results as numbers are `readCommit_res_of_match`. -/
theorem successCommitWritesExactlyThis : Obligations.SuccessCommitWritesExactlyThis := by
  intro s hw ho hc hm
  have hcommit : step s = .next (successCommit (edgeBase s)) := by
    rw [step_commits hw hc ho, readCommit_matching (s := edgeBase s) hm]
  obtain ⟨hseg, hsegValid, herr, hlevelValid, hlevel, hvolValid, hvolume⟩ :=
    readCommit_res_of_match (s := edgeBase s) hm
  rw [readCommit_matching (s := edgeBase s) hm] at hseg hsegValid herr hlevelValid hlevel hvolValid hvolume
  refine ⟨_, hcommit, fun i => ?_, hsegValid, rfl, rfl, rfl, ?_, hlevelValid, hvolume, hvolValid, herr,
    rfl, rfl, rfl, rfl, rfl, rfl, rfl⟩
  · rw [hseg]
    exact payload_getElem _ i
  · rw [hseg]
    exact hlevel

/-! ### The ticks of CALC -/

theorem writesAmong_zero (s : State) (start : Nat) : writesAmong s start 0 = false := rfl

theorem writesAmong_succ (s : State) (start n : Nat) :
    writesAmong s start (n + 1) = (writesAmong s start n || (inputAt s (start + n)).isWrite) := by
  simp [writesAmong, List.range_succ]

/-- The state `k` ticks into CALC, of a command `o` that `s` accepts at its next edge: the count, the pacing counter and
`OVR` have moved, and the model's own queue and edge number. -/
def calcAt (o : Op) (k : Nat) (s : State) : State :=
  { s with
    done := false
    ovr := s.ovr || writesAmong s 1 k
    idleUs := BitVec.ofNat 24 (min (s.idleUs.toNat + (1 + k)) Config.idleMax)
    seq := { s.seq with phase := .calc, cnt := BitVec.ofNat 16 k, op := o }
    inputs := s.inputs.drop (1 + k)
    edge := s.edge + (1 + k) }

theorem calcAt_idleUs_toNat (o : Op) (k : Nat) (s : State) :
    (calcAt o k s).idleUs.toNat = min (s.idleUs.toNat + (1 + k)) 16777215 := by
  simp [calcAt, Config.idleMax]

theorem nextInputs_calcAt (o : Op) (k : Nat) (s : State) : nextInputs (calcAt o k s) = inputAt s (1 + k) := by
  simp [nextInputs_eq_inputAt, inputAt, calcAt]

/-- The acceptance edge leads to tick 0. -/
theorem advance_startCalc (o : Op) (s : State) : advance (startCalc o s) = calcAt o 0 s := by
  simp [calcAt, advance, startCalc, pacingNext, writesAmong_zero]

/-- A tick of CALC leads to the next. -/
theorem countTick_edgeBase_calcAt (o : Op) (k : Nat) (s : State) :
    countTick (edgeBase (calcAt o k s)) = calcAt o (k + 1) s := by
  have hidle : pacingNext (calcAt o k s).idleUs = (calcAt o (k + 1) s).idleUs := by
    apply BitVec.eq_of_toNat_eq
    rw [pacingNext_toNat, calcAt_idleUs_toNat, calcAt_idleUs_toNat]
    omega
  rw [countTick, edgeBase, nextInputs_calcAt, hidle]
  simp [calcAt, writesAmong_succ, Bool.or_assoc, Nat.add_assoc, BitVec.ofNat_add]

/-- What the edge after tick `k` of CALC writes before the sequencer rule. -/
theorem edgeBase_calcAt_ovr (o : Op) (k : Nat) (s : State) :
    (edgeBase (calcAt o k s)).ovr = (s.ovr || writesAmong s 1 (k + 1)) :=
  congrArg State.ovr (countTick_edgeBase_calcAt o k s)

theorem edgeBase_calcAt_idleUs_toNat (o : Op) (k : Nat) (s : State) :
    (edgeBase (calcAt o k s)).idleUs.toNat = min (s.idleUs.toNat + (1 + (k + 1))) 16777215 := by
  rw [← calcAt_idleUs_toNat o (k + 1) s, ← countTick_edgeBase_calcAt]
  rfl

/-- A command that `s` accepts at its next edge and that takes the block to CALC, with no reset up to its commit. -/
structure StartsCalc (o : Op) (s : State) : Prop where
  legal : s.params.legal = true
  accepted : step s = .next (advance (startCalc o s))
  resetFree : ResetFree s (1 + s.params.tCalc)

theorem StartsCalc.workingIn {o : Op} {k : Nat} {s : State} (h : StartsCalc o s) (hk : k < s.params.tCalc) :
    WorkingIn .calc (calcAt o k s) :=
  ⟨h.legal, by rw [nextInputs_calcAt]; exact h.resetFree _ (by omega), rfl⟩

theorem StartsCalc.cnt_calcAt {o : Op} {k : Nat} {s : State} (h : StartsCalc o s) (hk : k < s.params.tCalc) :
    (calcAt o k s).seq.cnt.toNat = k := by
  have := (CountableTimings.of_legal h.legal).calc_le
  exact (BitVec.toNat_ofNat ..).trans (Nat.mod_eq_of_lt (by omega))

/-- From the acceptance to every tick of CALC. -/
theorem StartsCalc.run_calcAt {o : Op} {k : Nat} {s : State} (h : StartsCalc o s) (hk : k < s.params.tCalc) :
    run (1 + k) s = .next (calcAt o k s) := by
  induction k with
  | zero => exact run_succ_of_step (advance_startCalc o s ▸ h.accepted) 0
  | succ k ih =>
    have hk' : k < s.params.tCalc := by omega
    have hcnt : (calcAt o k s).seq.cnt.toNat ≠ s.params.tCalc - 1 := by
      rw [h.cnt_calcAt hk']
      omega
    have hstep : step (calcAt o k s) = .next (calcAt o (k + 1) s) := by
      rw [step_in_calc (h.workingIn hk'), calcPhase_counts (s := edgeBase (calcAt o k s)) hcnt,
        countTick_edgeBase_calcAt]
    exact (run_add (ih hk') 1).trans (run_succ_of_step hstep 0)

/-- From the acceptance over the last edge of CALC, at which the commit of the command in flight is `f`. -/
theorem StartsCalc.run_to_commit {o : Op} {k : Nat} {s : State} {f : State → State} (h : StartsCalc o s)
    (hk : k + 1 = s.params.tCalc)
    (hf : ∀ {u : State}, u.seq.cnt.toNat = u.params.tCalc - 1 → u.seq.op = o → calcPhase u = .next (f u)) :
    run (1 + s.params.tCalc) s = .next (f (edgeBase (calcAt o k s))) := by
  have hlt : k < s.params.tCalc := by omega
  have hcnt : (calcAt o k s).seq.cnt.toNat = s.params.tCalc - 1 := by
    rw [h.cnt_calcAt hlt]
    omega
  have hstep : step (calcAt o k s) = .next (f (edgeBase (calcAt o k s))) := by
    rw [step_in_calc (h.workingIn hlt), hf (u := edgeBase (calcAt o k s)) hcnt rfl]
  rw [← hk]
  exact (run_add (h.run_calcAt hlt) 1).trans (run_succ_of_step hstep 0)

/-- CALC has a last tick. -/
theorem StartsCalc.exists_last_tick {o : Op} {s : State} (h : StartsCalc o s) : ∃ k, k + 1 = s.params.tCalc :=
  ⟨_, Nat.sub_add_cancel (CountableTimings.of_legal h.legal).calc_pos⟩

/-! ### LEVEL -/

/-- The level LEVEL stores: that of the stored reading, 0 without one (spec/41_level_estimator.md R138). -/
def recomputedLevel (s : State) : Nat :=
  if s.res.segValid = true then estimateLevel s.params s.res.seg s.cfg.segcnt.val else 0

theorem levelCommit_res (s : State) :
    (levelCommit s).res = s.res.withLevel s.cfg s.res.segValid (recomputedLevel s) := by
  cases h : s.res.segValid with
  | true => rw [levelCommit_res_of_reading h, recomputedLevel, if_pos h]
  | false => rw [levelCommit_res_of_no_reading h, recomputedLevel, if_neg (by simp [h])]

/-- The recomputed level fits the 16 bits of `LEVEL`. -/
theorem toNat_ofNat_recomputedLevel (s : State) :
    (BitVec.ofNat 16 (recomputedLevel s)).toNat = recomputedLevel s := by
  unfold recomputedLevel
  split
  · exact toNat_ofNat_estimateLevel _ _ _
  · rfl

/-- A level that fits its register is the one the volume beside it is computed from. -/
theorem withLevel_volume_of_level {l : Nat} (h : (BitVec.ofNat 16 l).toNat = l) (r : Results) (c : HostRegs)
    (lv : Bool) :
    let v := r.withLevel c lv l
    v.volValid = (estimateVolume lv v.level.toNat (calPoints c) c.invert).1
      ∧ v.volume.toInt = (estimateVolume lv v.level.toNat (calPoints c) c.invert).2 := by
  dsimp only
  rw [withLevel_level, h, withLevel_volValid, withLevel_volume, toInt_ofInt_estimateVolume]
  exact ⟨rfl, rfl⟩

/-- Settles O26: the ticks of CALC are `calcAt`, and `levelCommit` at the last edge recomputes level and volume. -/
theorem levelRecomputesFromTheReading : Obligations.LevelRecomputesFromTheReading := by
  intro s hl hc hr
  have h : StartsCalc .level s := ⟨hl, step_of_exec hl hc (exec_level s), hr⟩
  refine ⟨fun k hk => ⟨calcAt .level k s, h.run_calcAt hk, rfl, rfl, rfl, rfl, rfl, rfl, rfl,
    calcAt_idleUs_toNat _ k s⟩, ?_⟩
  obtain ⟨k, hk⟩ := h.exists_last_tick
  refine ⟨levelCommit (edgeBase (calcAt .level k s)), h.run_to_commit hk calcPhase_level, rfl, rfl, rfl, rfl, rfl,
    hk ▸ edgeBase_calcAt_ovr _ k s, hk ▸ edgeBase_calcAt_idleUs_toNat _ k s, ?_⟩
  have hlevel := toNat_ofNat_recomputedLevel (edgeBase (calcAt .level k s))
  rw [levelCommit_res]
  exact ⟨rfl, rfl, rfl, rfl, rfl, rfl, rfl, hlevel, withLevel_volume_of_level hlevel ..⟩

/-! ### VOLUME -/

/-- Settles O27: the ticks of CALC are `calcAt`, and `volumeCommit` at the last edge recomputes the volume. -/
theorem volumeRecomputesFromTheLevel : Obligations.VolumeRecomputesFromTheLevel := by
  intro s hl hc hr
  have h : StartsCalc .volume s := ⟨hl, step_of_exec hl hc (exec_volume s), hr⟩
  refine ⟨fun k hk => ⟨calcAt .volume k s, h.run_calcAt hk, rfl, rfl, rfl⟩, ?_⟩
  obtain ⟨k, hk⟩ := h.exists_last_tick
  exact ⟨volumeCommit (edgeBase (calcAt .volume k s)), h.run_to_commit hk calcPhase_volume, rfl, rfl, rfl, rfl, rfl,
    hk ▸ edgeBase_calcAt_ovr _ k s, hk ▸ edgeBase_calcAt_idleUs_toNat _ k s, withVolume_frame .., rfl,
    toInt_ofInt_estimateVolume ..⟩

end Sys2Proof.Machine
end

section
/-! The error exit (spec/60_exceptions.md R206) at each of the six edges that raise one of the errors R201 to R205. The
model's `errorExit` of an edge is `failedAttempt` once its results are known; those differ only in the checksum pair. -/

namespace Sys2Proof.Machine

/-- An error exit whose results hold the checksum pair `exp`, `act` with flag `valid` is the failed attempt of R206. -/
theorem errorExit_edgeBase_of_res {e : ErrorKind} {s : State} {exp : BitVec 12} {act : BitVec 16} {valid : Bool}
    (h : (errorExit e (edgeBase s)).res = Results.failed e exp act valid) :
    errorExit e (edgeBase s) = failedAttempt s (errorCode e) exp act valid := by
  change { failedAttempt s (errorCode e) exp act valid with res := (errorExit e (edgeBase s)).res } = _
  rw [h]
  rfl

/-- Every error but ChecksumMismatch leaves no checksum pair. -/
theorem errorExit_edgeBase_of_ne {e : ErrorKind} (h : e ≠ .checksumMismatch) (s : State) :
    errorExit e (edgeBase s) = failedAttempt s (errorCode e) 0#12 0#16 false :=
  errorExit_edgeBase_of_res (errorExit_res_of_ne h _)

/-- ChecksumMismatch keeps the pair it compared. -/
theorem errorExit_edgeBase_checksumMismatch (s : State) :
    errorExit .checksumMismatch (edgeBase s) =
      failedAttempt s 5#3 (checksumField s.seq.pkt) (payloadSum s.seq.pkt) true :=
  errorExit_edgeBase_of_res (errorExit_res_checksumMismatch _)

/-- The deadline of the first wait of a packet is `T_FIRST`. -/
theorem waitLimit_of_first {s : State} (h : s.seq.first = true) : waitLimit s = s.params.tFirst := if_pos h

/-- The deadline of every later wait is `T_BIT`. -/
theorem waitLimit_of_not_first {s : State} (h : s.seq.first = false) : waitLimit s = s.params.tBit :=
  if_neg (by simp [h])

/-- Settles O23: the rule of each phase raises its error on `edgeBase`, and the error exit there is `failedAttempt`. -/
theorem errorExitWritesExactlyThis : Obligations.ErrorExitWritesExactlyThis := by
  refine fun s => ⟨fun h hrx => ?_, fun h hc hrx => ?_, fun h hf hc hrx => ?_, fun h hf hc hrx => ?_,
    fun h hc hrx => ?_, fun h ho hc hm => ?_⟩
  · rw [step_in_precheck h, hrx, precheckPhase_low, errorExit_edgeBase_of_ne (by decide)]
    rfl
  · rw [step_in_charge h, hrx, chargePhase_short (s := edgeBase s) hc, errorExit_edgeBase_of_ne (by decide)]
    rfl
  · have hlimit := hc.trans (waitLimit_of_first hf).symm
    rw [step_in_waitHigh h, hrx, waitHighPhase_noResponse (s := edgeBase s) hlimit hf,
      errorExit_edgeBase_of_ne (by decide)]
    rfl
  · have hlimit := hc.trans (waitLimit_of_not_first hf).symm
    rw [step_in_waitHigh h, hrx, waitHighPhase_timeout (s := edgeBase s) hlimit hf,
      errorExit_edgeBase_of_ne (by decide)]
    rfl
  · rw [step_in_measHigh h, hrx, measHighPhase_timeout (s := edgeBase s) hc, errorExit_edgeBase_of_ne (by decide)]
    rfl
  · rw [step_commits h hc ho, readCommit_mismatching (s := edgeBase s) hm, errorExit_edgeBase_checksumMismatch]

end Sys2Proof.Machine
end

section
/-! The checksum arithmetic (spec/40_wire_decoder.md R116, spec/30_encoding.md R74): the 16-bit sum of ten bytes never
wraps, and neither it nor the checksum field exceeds 12 bits. -/

namespace Sys2Proof.Machine

/-- A 16-bit accumulator holds the exact sum of a list of bytes as long as their number bounds it. -/
theorem foldl_add_byte_toNat (l : List Byte) {acc : BitVec 16} (h : acc.toNat + 255 * l.length < 65536) :
    (l.foldl (fun a b => a + b.setWidth 16) acc).toNat = acc.toNat + (l.map BitVec.toNat).sum := by
  induction l generalizing acc with
  | nil => simp
  | cons b l ih =>
    have hb : b.toNat ≤ 255 := Nat.le_of_lt_succ b.isLt
    rw [List.length_cons] at h
    have hacc : (acc + b.setWidth 16).toNat = acc.toNat + b.toNat := by bv_omega
    rw [List.foldl_cons, ih (by omega), hacc, List.map_cons, List.sum_cons, Nat.add_assoc]

theorem payloadSum_toNat_eq_sum (pkt : Vector Byte 12) :
    (payloadSum pkt).toNat = ((payload pkt).toList.map BitVec.toNat).sum := by
  rw [payloadSum, foldl_add_byte_toNat _ (by simp), BitVec.toNat_ofNat, Nat.zero_mod, Nat.zero_add]

theorem payloadSum_toNat (pkt : Vector Byte 12) :
    (payloadSum pkt).toNat =
      pkt[2].toNat + pkt[3].toNat + pkt[4].toNat + pkt[5].toNat + pkt[6].toNat + pkt[7].toNat + pkt[8].toNat
        + pkt[9].toNat + pkt[10].toNat + pkt[11].toNat := by
  rw [payloadSum_toNat_eq_sum]
  simp [payload, Vector.toList_ofFn, List.ofFn_succ, Nat.add_assoc]

theorem payloadSum_le (pkt : Vector Byte 12) : (payloadSum pkt).toNat ≤ 2550 := by
  have hbyte : ∀ x ∈ (payload pkt).toList.map BitVec.toNat, x ≤ 255 := by
    intro x hx
    obtain ⟨b, -, rfl⟩ := List.mem_map.mp hx
    exact Nat.le_of_lt_succ b.isLt
  have hsum := List.sum_le_card_nsmul _ _ hbyte
  rwa [← payloadSum_toNat_eq_sum, List.length_map, Vector.length_toList] at hsum

theorem checksumField_toNat (pkt : Vector Byte 12) :
    (checksumField pkt).toNat = (pkt[0].toNat * 256 + pkt[1].toNat) % 4096 := by
  rw [checksumField, BitVec.extractLsb'_toNat, headerWord_toNat, Nat.shiftRight_zero]

/-- The sum fits the 12 bits in which it is compared. -/
theorem checksumMatches_iff (pkt : Vector Byte 12) :
    checksumMatches pkt = true ↔ (payloadSum pkt).toNat = (checksumField pkt).toNat := by
  have hsum := payloadSum_le pkt
  have hlow : ((payloadSum pkt).extractLsb' 0 12).toNat = (payloadSum pkt).toNat := by
    rw [BitVec.extractLsb'_toNat, Nat.shiftRight_zero, Nat.mod_eq_of_lt (by omega)]
  rw [checksumMatches, decide_eq_true_iff, ← BitVec.toNat_inj, hlow]

/-- Settles O24: the sum of ten bytes is at most 2550, which fits both 16 and 12 bits. -/
theorem checksumComparesExactNumbers : Obligations.ChecksumComparesExactNumbers := fun pkt =>
  ⟨checksumField_toNat pkt, payloadSum_toNat pkt, payloadSum_le pkt, checksumMatches_iff pkt⟩

end Sys2Proof.Machine
end

section
/-! The results of every reachable state (spec/10_state.md R28, R30, R43): each exit leaves them consistent with their flags
and ranges. The reading, the level and the volume are looked at apart, because the exits write them apart. -/

namespace Sys2Proof.Machine

/-- The reading and the checksum pair agree with their flags, and `ERR` is a code that is produced. -/
structure ReadingConsistent (r : Results) : Prop where
  seg : r.segValid = false → r.seg = Vector.replicate 10 0#8
  pair : r.csv = false → r.csExp = 0#12 ∧ r.csAct = 0#16
  act_le : r.csAct.toNat ≤ 2550
  err : r.err ≠ 7#3

/-- The level agrees with its flag and its range, and needs a reading. -/
structure LevelConsistent (r : Results) : Prop where
  needs : r.levelValid = true → r.segValid = true
  zero : r.levelValid = false → r.level = 0#16
  le : r.level.toNat ≤ 40960

/-- The volume agrees with its flag and its range, and needs a level. -/
structure VolumeConsistent (r : Results) : Prop where
  needs : r.volValid = true → r.levelValid = true
  zero : r.volValid = false → r.volume = 0#32
  ge : -16777215 ≤ r.volume.toInt
  le : r.volume.toInt ≤ 16777215

theorem resultsConsistent_iff {r : Results} :
    ResultsConsistent r ↔ ReadingConsistent r ∧ LevelConsistent r ∧ VolumeConsistent r := by
  refine ⟨fun ⟨hlevel, hvol, hseg, hzero, hzero', hmax, hge, hle, hpair, hact, herr⟩ => ?_, fun ⟨hr, hl, hv⟩ => ?_⟩
  · exact ⟨⟨hseg, hpair, hact, herr⟩, ⟨hlevel, hzero, hmax⟩, ⟨hvol, hzero', hge, hle⟩⟩
  · exact ⟨hl.needs, hv.needs, hr.seg, hl.zero, hv.zero, hl.le, hv.ge, hv.le, hr.pair, hr.act_le, hr.err⟩

/-- An undefined level is consistent with everything. -/
theorem LevelConsistent.of_undefined {r : Results} (hv : r.levelValid = false) (h0 : r.level = 0#16) :
    LevelConsistent r :=
  ⟨by simp [hv], fun _ => h0, by simp [h0]⟩

/-- An undefined volume is consistent with everything. -/
theorem VolumeConsistent.of_undefined {r : Results} (hv : r.volValid = false) (h0 : r.volume = 0#32) :
    VolumeConsistent r :=
  ⟨by simp [hv], fun _ => h0, by simp [h0], by simp [h0]⟩

/-! ### The reset and the error exits -/

theorem reset_resultsConsistent : ResultsConsistent Results.reset :=
  resultsConsistent_iff.mpr
    ⟨⟨fun _ => rfl, fun _ => ⟨rfl, rfl⟩, by decide, by decide⟩, .of_undefined rfl rfl, .of_undefined rfl rfl⟩

theorem errorCode_ne_seven (e : ErrorKind) : errorCode e ≠ 7#3 := by
  cases e <;> decide

/-- A failed READ leaves no result but `ERR` and, where `CSV` says so, the checksum pair. -/
theorem failed_resultsConsistent (e : ErrorKind) {exp : BitVec 12} {act : BitVec 16} {valid : Bool}
    (hpair : valid = false → exp = 0#12 ∧ act = 0#16) (hact : act.toNat ≤ 2550) :
    ResultsConsistent (Results.failed e exp act valid) :=
  resultsConsistent_iff.mpr
    ⟨⟨fun _ => rfl, hpair, hact, errorCode_ne_seven e⟩, .of_undefined rfl rfl, .of_undefined rfl rfl⟩

theorem errorExit_resultsConsistent (e : ErrorKind) (s : State) : ResultsConsistent (errorExit e s).res := by
  by_cases he : e = .checksumMismatch
  · rw [he, errorExit_res_checksumMismatch]
    exact failed_resultsConsistent _ (by simp) (payloadSum_le _)
  · rw [errorExit_res_of_ne he]
    exact failed_resultsConsistent _ (fun _ => ⟨rfl, rfl⟩) (Nat.zero_le _)

/-! ### The commits -/

/-- A volume is valid only for a valid level. -/
theorem levelValid_of_estimateVolume_valid {lv inv : Bool} {l : Nat} {pts : List CalPoint}
    (h : (estimateVolume lv l pts inv).1 = true) : lv = true := by
  cases lv with
  | true => rfl
  | false => simp at h

/-- An invalid volume is 0. -/
theorem estimateVolume_eq_zero_of_invalid {lv inv : Bool} {l : Nat} {pts : List CalPoint}
    (h : (estimateVolume lv l pts inv).1 = false) : (estimateVolume lv l pts inv).2 = 0 := by
  unfold estimateVolume at h ⊢
  split_ifs at h ⊢
  rfl

/-- A volume computed from the level-valid bit beside it is consistent. -/
theorem withVolume_volumeConsistent (r : Results) (c : HostRegs) (l : Nat) :
    VolumeConsistent (r.withVolume c r.levelValid l) := by
  obtain ⟨hge, hle⟩ := estimateVolume_mem_Icc c r.levelValid c.invert l
  rw [← toInt_ofInt_estimateVolume] at hge hle
  refine ⟨levelValid_of_estimateVolume_valid, fun hv => ?_, hge, hle⟩
  rw [withVolume_volume, estimateVolume_eq_zero_of_invalid hv]
  rfl

/-- Results with a new level and volume are consistent when the reading is, and the level is that of a reading of at most 10
segments, or 0 without one. -/
theorem withLevel_resultsConsistent {r : Results} (h : ReadingConsistent r) (c : HostRegs) {l : Nat} (hmax : l ≤ 40960)
    (hzero : r.segValid = false → l = 0) : ResultsConsistent (r.withLevel c r.segValid l) := by
  have hl : (BitVec.ofNat 16 l).toNat = l := by rw [BitVec.toNat_ofNat, Nat.mod_eq_of_lt (by omega)]
  exact resultsConsistent_iff.mpr ⟨⟨h.seg, h.pair, h.act_le, h.err⟩,
    ⟨fun hv => hv, fun hv => by rw [withLevel_level, hzero hv], hl.trans_le hmax⟩, withVolume_volumeConsistent ..⟩

/-- A level of at most 10 segments is at most 40960. -/
theorem estimateLevel_le_max (p : Params) (r : Vector Byte 10) (n : Fin 11) : estimateLevel p r n.val ≤ 40960 := by
  have := estimateLevel_le p r n.val
  omega

theorem successCommit_resultsConsistent (s : State) : ResultsConsistent (successCommit s).res :=
  withLevel_resultsConsistent
    (r := { s.res with
      seg := payload s.seq.pkt
      segValid := true
      csExp := checksumField s.seq.pkt
      csAct := payloadSum s.seq.pkt
      csv := true
      err := 0#3 })
    ⟨by simp, by simp, payloadSum_le _, by simp⟩ s.cfg (estimateLevel_le_max _ _ _) (by simp)

theorem recomputedLevel_le (s : State) : recomputedLevel s ≤ 40960 := by
  unfold recomputedLevel
  split
  · exact estimateLevel_le_max _ _ _
  · exact Nat.zero_le _

theorem levelCommit_resultsConsistent {s : State} (h : ResultsConsistent s.res) :
    ResultsConsistent (levelCommit s).res := by
  rw [levelCommit_res]
  exact withLevel_resultsConsistent (resultsConsistent_iff.mp h).1 s.cfg (recomputedLevel_le s)
    fun hv => by simp [recomputedLevel, hv]

theorem volumeCommit_resultsConsistent {s : State} (h : ResultsConsistent s.res) :
    ResultsConsistent (volumeCommit s).res := by
  obtain ⟨hr, hl, -⟩ := resultsConsistent_iff.mp h
  exact resultsConsistent_iff.mpr
    ⟨⟨hr.seg, hr.pair, hr.act_le, hr.err⟩, ⟨hl.needs, hl.zero, hl.le⟩, withVolume_volumeConsistent ..⟩

/-! ### Every step -/

/-- A sequencer rule keeps the results or ends in one of the exits. -/
theorem sequencer_keeps_resultsConsistent {rx : Bool} {s t : State} (hs : s.seq.phase ≠ .idle)
    (hr : ResultsConsistent s.res) (h : sequencer rx s = .next t) : ResultsConsistent t.res := by
  rcases sequencer_next_of_busy hs h with hg | ⟨-, e, rfl⟩ | ⟨-, ⟨-, rfl | rfl⟩ | ⟨-, rfl⟩ | ⟨-, rfl⟩⟩
  · rwa [hg.res]
  · exact errorExit_resultsConsistent e s
  · exact successCommit_resultsConsistent s
  · exact errorExit_resultsConsistent _ s
  · exact levelCommit_resultsConsistent hr
  · exact volumeCommit_resultsConsistent hr

/-- A command keeps the results at its acceptance, but for a RateLimited READ. -/
theorem exec_keeps_resultsConsistent {c : Instr} {s t : State} (hr : ResultsConsistent s.res)
    (h : exec c s = .next t) : ResultsConsistent t.res := by
  rcases exec_next h with ⟨-, rfl⟩ | ⟨-, -, rfl⟩ | ⟨-, -, rfl⟩ | ⟨-, rfl⟩ | ⟨-, rfl⟩ | ⟨-, rfl⟩
  · exact hr
  · exact failed_resultsConsistent _ (fun _ => ⟨rfl, rfl⟩) (Nat.zero_le _)
  all_goals exact hr

theorem step_keeps_resultsConsistent {s t : State} (hr : ResultsConsistent s.res) (h : step s = .next t) :
    ResultsConsistent t.res := by
  rcases (step_next h).2 with ⟨-, rfl⟩ | ⟨hrst, hp, -⟩ | ⟨-, hp, hs⟩
  · exact reset_resultsConsistent
  · rcases step_next_of_idle hrst hp h with ⟨c, u, -, hx, rfl⟩ | ⟨-, rfl | rfl | ⟨r, w, rfl⟩⟩
    · have hu : ResultsConsistent u.res := exec_keeps_resultsConsistent hr hx
      exact hu
    all_goals exact hr
  · exact sequencer_keeps_resultsConsistent (s := edgeBase s) hp hr hs

end Sys2Proof.Machine
end

section
/-! The sequencer and `tx` of every reachable state (spec/10_state.md R40, R43; spec/40_wire_decoder.md R100, R122, R123): the
clauses of the invariant about them, phase by phase, and that every rule leads from the clause of its phase to that of the
next. -/

namespace Sys2Proof.Machine

/-! ### The clauses of each phase -/

/-- The address pulses still to finish are those of the configured address or fewer. -/
def PulseInRange (s : State) : Prop := 1 ≤ s.seq.pulse.toNat ∧ s.seq.pulse.toNat ≤ s.cfg.addr.toNat

/-- What holds of the pin, the count and the command in flight, by the phase. -/
def PhaseInv (s : State) : Prop :=
  match s.seq.phase with
  | .idle => s.tx = false
  | .precheck => s.tx = false ∧ s.seq.op = .read
  | .charge => s.tx = true ∧ s.seq.op = .read ∧ s.seq.cnt.toNat < s.params.tCharge
  | .addrLow => s.tx = false ∧ s.seq.op = .read ∧ s.seq.cnt.toNat < s.params.tAddrLow ∧ PulseInRange s
  | .addrHigh => s.tx = true ∧ s.seq.op = .read ∧ s.seq.cnt.toNat < s.params.tAddrHigh ∧ PulseInRange s
  | .waitHigh => s.tx = s.params.txListen ∧ s.seq.op = .read ∧ s.seq.cnt.toNat ≤ waitLimit s
  | .measHigh =>
    s.tx = s.params.txListen ∧ s.seq.op = .read ∧ 1 ≤ s.seq.cnt.toNat ∧ s.seq.cnt.toNat ≤ s.params.tBit
  | .calc => s.tx = false ∧ s.seq.op ≠ .none ∧ s.seq.cnt.toNat < s.params.tCalc

theorem phaseInv_idle {s : State} (h : s.seq.phase = .idle) : PhaseInv s ↔ s.tx = false := by
  rw [PhaseInv, h]

theorem phaseInv_precheck {s : State} (h : s.seq.phase = .precheck) :
    PhaseInv s ↔ s.tx = false ∧ s.seq.op = .read := by
  rw [PhaseInv, h]

theorem phaseInv_charge {s : State} (h : s.seq.phase = .charge) :
    PhaseInv s ↔ s.tx = true ∧ s.seq.op = .read ∧ s.seq.cnt.toNat < s.params.tCharge := by
  rw [PhaseInv, h]

theorem phaseInv_addrLow {s : State} (h : s.seq.phase = .addrLow) :
    PhaseInv s ↔ s.tx = false ∧ s.seq.op = .read ∧ s.seq.cnt.toNat < s.params.tAddrLow ∧ PulseInRange s := by
  rw [PhaseInv, h]

theorem phaseInv_addrHigh {s : State} (h : s.seq.phase = .addrHigh) :
    PhaseInv s ↔ s.tx = true ∧ s.seq.op = .read ∧ s.seq.cnt.toNat < s.params.tAddrHigh ∧ PulseInRange s := by
  rw [PhaseInv, h]

theorem phaseInv_waitHigh {s : State} (h : s.seq.phase = .waitHigh) :
    PhaseInv s ↔ s.tx = s.params.txListen ∧ s.seq.op = .read ∧ s.seq.cnt.toNat ≤ waitLimit s := by
  rw [PhaseInv, h]

theorem phaseInv_measHigh {s : State} (h : s.seq.phase = .measHigh) :
    PhaseInv s ↔
      s.tx = s.params.txListen ∧ s.seq.op = .read ∧ 1 ≤ s.seq.cnt.toNat ∧ s.seq.cnt.toNat ≤ s.params.tBit := by
  rw [PhaseInv, h]

theorem phaseInv_calc {s : State} (h : s.seq.phase = .calc) :
    PhaseInv s ↔ s.tx = false ∧ s.seq.op ≠ .none ∧ s.seq.cnt.toNat < s.params.tCalc := by
  rw [PhaseInv, h]

/-- The clauses phase by phase are those of the invariant about the pin, the counters and the command in flight. -/
theorem phaseInv_iff {s : State} : PhaseInv s ↔ TxMatchesPhase s ∧ CountersInRange s ∧ CommandInFlight s := by
  have hread : ¬ s.seq.op = .none ∧ s.seq.op = .read ↔ s.seq.op = .read := ⟨And.right, fun h => ⟨by simp [h], h⟩⟩
  unfold PhaseInv PulseInRange TxMatchesPhase CountersInRange CommandInFlight
  cases h : s.seq.phase <;> simp [hread, and_comm]

theorem inv_iff {s : State} : Inv s ↔ PhaseInv s ∧ ResultsConsistent s.res := by
  rw [phaseInv_iff]
  exact ⟨fun ⟨htx, hres, hcnt, hop⟩ => ⟨⟨htx, hcnt, hop⟩, hres⟩,
    fun ⟨⟨htx, hcnt, hop⟩, hres⟩ => ⟨htx, hres, hcnt, hop⟩⟩

/-! ### The rules of an attempt -/

/-- One more tick is at most one more. -/
theorem succ_toNat_le (c : BitVec 16) : (c + 1#16).toNat ≤ c.toNat + 1 := by
  bv_omega

theorem errorExit_phaseInv (e : ErrorKind) (s : State) : PhaseInv (errorExit e s) := rfl

theorem startListening_phaseInv {s : State} (h : s.seq.op = .read) : PhaseInv (startListening s) :=
  ⟨rfl, h, Nat.zero_le _⟩

theorem precheckPhase_phaseInv (rx : Bool) {s : State} (hl : s.params.legal = true) (hop : s.seq.op = .read) :
    PhaseInv (precheckPhase rx s) := by
  cases rx with
  | false => exact errorExit_phaseInv .interfaceFault s
  | true => exact ⟨rfl, hop, (CountableTimings.of_legal hl).charge_pos⟩

theorem chargePhase_phaseInv (rx : Bool) {s : State} (hl : s.params.legal = true) (hp : s.seq.phase = .charge)
    (h : PhaseInv s) : PhaseInv (chargePhase rx s) := by
  obtain ⟨htx, hop, hcnt⟩ := (phaseInv_charge hp).mp h
  unfold chargePhase
  split_ifs with hlast hrx ha
  · exact errorExit_phaseInv _ s
  · exact startListening_phaseInv hop
  · have hpos : s.cfg.addr.toNat ≠ 0 := fun h0 => ha (BitVec.eq_of_toNat_eq h0)
    exact ⟨rfl, hop, (CountableTimings.of_legal hl).addrLow_pos, Nat.one_le_iff_ne_zero.mpr hpos, le_rfl⟩
  · refine (phaseInv_charge (s := countTick s) hp).mpr ⟨htx, hop, ?_⟩
    have := succ_toNat_le s.seq.cnt
    rw [countTick_cnt, countTick_params]
    omega

theorem addrLowPhase_phaseInv {s : State} (hl : s.params.legal = true) (hp : s.seq.phase = .addrLow)
    (h : PhaseInv s) : PhaseInv (addrLowPhase s) := by
  obtain ⟨htx, hop, hcnt, hpulse⟩ := (phaseInv_addrLow hp).mp h
  unfold addrLowPhase
  split_ifs with hlast
  · exact ⟨rfl, hop, (CountableTimings.of_legal hl).addrHigh_pos, hpulse⟩
  · refine (phaseInv_addrLow (s := countTick s) hp).mpr ⟨htx, hop, ?_, hpulse⟩
    have := succ_toNat_le s.seq.cnt
    rw [countTick_cnt, countTick_params]
    omega

theorem addrHighPhase_phaseInv {s : State} (hl : s.params.legal = true) (hp : s.seq.phase = .addrHigh)
    (h : PhaseInv s) : PhaseInv (addrHighPhase s) := by
  obtain ⟨htx, hop, hcnt, hpulse⟩ := (phaseInv_addrHigh hp).mp h
  unfold addrHighPhase
  split_ifs with hlast hone
  · exact startListening_phaseInv hop
  · obtain ⟨hpos, hle⟩ := hpulse
    have hless : (s.seq.pulse - 1#4).toNat = s.seq.pulse.toNat - 1 := by bv_omega
    have htwo : s.seq.pulse.toNat ≠ 1 := fun h1 => hone (BitVec.eq_of_toNat_eq h1)
    refine ⟨rfl, hop, (CountableTimings.of_legal hl).addrLow_pos, ?_, ?_⟩
    · change 1 ≤ (s.seq.pulse - 1#4).toNat
      omega
    · change (s.seq.pulse - 1#4).toNat ≤ s.cfg.addr.toNat
      omega
  · refine (phaseInv_addrHigh (s := countTick s) hp).mpr ⟨htx, hop, ?_, hpulse⟩
    have := succ_toNat_le s.seq.cnt
    rw [countTick_cnt, countTick_params]
    omega

/-- The legal ranges, as numbers. -/
theorem legal_iff (p : Params) :
    p.legal = true ↔
      (1500 ≤ p.tCharge ∧ p.tCharge ≤ 3000 ∧ 1 ≤ p.tAddrLow ∧ p.tAddrLow ≤ 65535
      ∧ 1 ≤ p.tAddrHigh ∧ p.tAddrHigh ≤ 65535 ∧ 14000 ≤ p.tFirst ∧ p.tFirst ≤ 20000
      ∧ 27 ≤ p.tBit ∧ p.tBit ≤ 65535 ∧ 1 ≤ p.tCalc ∧ p.tCalc ≤ 65535
      ∧ 1 ≤ p.noiseFloor ∧ p.noiseFloor ≤ 255 ∧ 1 ≤ p.baseline ∧ p.baseline ≤ 255
      ∧ 1 ≤ p.dampQ8 ∧ p.dampQ8 ≤ 255 ∧ 4096 ≤ p.capTop ∧ p.capTop ≤ 8191) := by
  simp only [Params.legal, Params.timingLegal, Params.estimatorLegal, Bool.and_eq_true, decide_eq_true_eq, and_assoc]

theorem bit_pos_of_legal {p : Params} (h : p.legal = true) : 1 ≤ p.tBit := by
  have := (legal_iff p).mp h
  omega

theorem waitHighPhase_phaseInv (rx : Bool) {s : State} (hl : s.params.legal = true) (hp : s.seq.phase = .waitHigh)
    (h : PhaseInv s) : PhaseInv (waitHighPhase rx s) := by
  obtain ⟨htx, hop, hcnt⟩ := (phaseInv_waitHigh hp).mp h
  unfold waitHighPhase
  split_ifs with hrx hlast
  · exact ⟨htx, hop, le_rfl, bit_pos_of_legal hl⟩
  · exact errorExit_phaseInv _ s
  · exact errorExit_phaseInv _ s
  · refine (phaseInv_waitHigh (s := countTick s) hp).mpr ⟨htx, hop, ?_⟩
    have := succ_toNat_le s.seq.cnt
    change (s.seq.cnt + 1#16).toNat ≤ waitLimit s
    omega

/-- A bit leads on to the next wait or, the 96th, to CALC. -/
theorem shiftBit_phaseInv (b : Bool) {s : State} (hl : s.params.legal = true) (htx : s.tx = s.params.txListen)
    (hop : s.seq.op = .read) : PhaseInv (shiftBit b s) := by
  by_cases hb : s.seq.bitn = 7#3
  · by_cases hy : s.seq.byten = 11
    · rw [shiftBit_ends_packet b hb hy]
      refine ⟨rfl, ?_, (CountableTimings.of_legal hl).calc_pos⟩
      simp [hop]
    · rw [shiftBit_ends_byte b hb hy]
      exact ⟨htx, hop, Nat.zero_le _⟩
  · rw [shiftBit_within_byte b hb]
    exact ⟨htx, hop, Nat.zero_le _⟩

theorem measHighPhase_phaseInv (rx : Bool) {s : State} (hl : s.params.legal = true) (hp : s.seq.phase = .measHigh)
    (h : PhaseInv s) : PhaseInv (measHighPhase rx s) := by
  obtain ⟨htx, hop, hpos, hcnt⟩ := (phaseInv_measHigh hp).mp h
  unfold measHighPhase
  split_ifs with hrx hlast
  · exact shiftBit_phaseInv _ hl htx hop
  · exact errorExit_phaseInv _ s
  · have hbit := (CountableTimings.of_legal hl).bit_le
    have hnext : (s.seq.cnt + 1#16).toNat = s.seq.cnt.toNat + 1 := by bv_omega
    refine (phaseInv_measHigh (s := countTick s) hp).mpr ⟨htx, hop, ?_, ?_⟩
    · rw [countTick_cnt, hnext]
      omega
    · rw [countTick_cnt, hnext, countTick_params]
      omega

/-- CALC counts, or ends in IDLE with the pin as it was. -/
theorem calcPhase_phaseInv {s t : State} (hp : s.seq.phase = .calc) (h : PhaseInv s) (ht : calcPhase s = .next t) :
    PhaseInv t := by
  obtain ⟨htx, hop, hcnt⟩ := (phaseInv_calc hp).mp h
  rcases calcPhase_next ht with ⟨hlast, rfl⟩ | ⟨-, ⟨-, -, rfl⟩ | ⟨-, -, rfl⟩ | ⟨-, rfl⟩ | ⟨-, rfl⟩⟩
  · refine (phaseInv_calc (s := countTick s) hp).mpr ⟨htx, hop, ?_⟩
    have := succ_toNat_le s.seq.cnt
    rw [countTick_cnt, countTick_params]
    omega
  · exact (phaseInv_idle (successCommit_phase s)).mpr rfl
  · exact errorExit_phaseInv _ s
  · exact (phaseInv_idle (levelCommit_phase s)).mpr htx
  · exact (phaseInv_idle (volumeCommit_phase s)).mpr htx

/-! ### Every step -/

theorem sequencer_keeps_phaseInv {rx : Bool} {s t : State} (hl : s.params.legal = true) (h : PhaseInv s)
    (ht : sequencer rx s = .next t) : PhaseInv t := by
  rcases sequencer_next ht with
    ⟨-, rfl⟩ | ⟨hp, rfl⟩ | ⟨hp, rfl⟩ | ⟨hp, rfl⟩ | ⟨hp, rfl⟩ | ⟨hp, rfl⟩ | ⟨hp, rfl⟩ | ⟨hp, hc⟩
  · exact h
  · exact precheckPhase_phaseInv rx hl ((phaseInv_precheck hp).mp h).2
  · exact chargePhase_phaseInv rx hl hp h
  · exact addrLowPhase_phaseInv hl hp h
  · exact addrHighPhase_phaseInv hl hp h
  · exact waitHighPhase_phaseInv rx hl hp h
  · exact measHighPhase_phaseInv rx hl hp h
  · exact calcPhase_phaseInv hp h hc

/-- A command leaves the block idle, or leads to the start of an attempt or of CALC, with the pin at 0. -/
theorem exec_keeps_phaseInv {c : Instr} {s t : State} (hl : s.params.legal = true) (hp : s.seq.phase = .idle)
    (h : PhaseInv s) (hx : exec c s = .next t) : PhaseInv t := by
  have htx := (phaseInv_idle hp).mp h
  have hcalc := (CountableTimings.of_legal hl).calc_pos
  rcases exec_next hx with ⟨-, rfl⟩ | ⟨-, -, rfl⟩ | ⟨-, -, rfl⟩ | ⟨-, rfl⟩ | ⟨-, rfl⟩ | ⟨-, rfl⟩
  · exact h
  · exact (phaseInv_idle (s := rateLimitedExit s) hp).mpr htx
  · exact (phaseInv_precheck (startAttempt_phase s)).mpr ⟨htx, rfl⟩
  · exact (phaseInv_calc (startCalc_phase .level s)).mpr ⟨htx, by simp, hcalc⟩
  · exact (phaseInv_calc (startCalc_phase .volume s)).mpr ⟨htx, by simp, hcalc⟩
  · exact (phaseInv_idle hp).mpr htx

theorem step_keeps_phaseInv {s t : State} (h : PhaseInv s) (hs : step s = .next t) : PhaseInv t := by
  obtain ⟨hl, ⟨-, rfl⟩ | ⟨hr, hp, -⟩ | ⟨-, -, ht⟩⟩ := step_next hs
  · exact (phaseInv_idle (s := resetEdge s) rfl).mpr rfl
  · have htx := (phaseInv_idle hp).mp h
    rcases step_next_of_idle hr hp hs with ⟨c, u, -, hx, rfl⟩ | ⟨-, rfl | rfl | ⟨r, w, rfl⟩⟩
    · have hu : PhaseInv u := exec_keeps_phaseInv hl hp h hx
      exact hu
    · exact h
    · exact h
    · exact (phaseInv_idle (s := writeReg s r w) hp).mpr htx
  · exact sequencer_keeps_phaseInv (s := edgeBase s) hl h ht

/-! ### The obligations -/

/-- Settles O35: the clauses of the phases and the results are each kept by every step. -/
theorem everyStepKeepsTheInvariant : Obligations.EveryStepKeepsTheInvariant := by
  intro s t hs h
  obtain ⟨hphase, hres⟩ := inv_iff.mp hs
  exact inv_iff.mpr ⟨step_keeps_phaseInv hphase h, step_keeps_resultsConsistent hres h⟩

/-- Settles O34. -/
theorem resetStateMeetsTheInvariant : Obligations.ResetStateMeetsTheInvariant :=
  inv_iff.mpr ⟨(phaseInv_idle (s := State.reset) rfl).mpr rfl, reset_resultsConsistent⟩

/-- The sequencer answers a next state where the phase's clause holds: CALC has a command to commit. -/
theorem sequencer_isNext (rx : Bool) {s : State} (h : PhaseInv s) : ∃ t, sequencer rx s = .next t := by
  unfold sequencer
  split
  case h_8 hp =>
    obtain ⟨-, hop, -⟩ := (phaseInv_calc hp).mp h
    unfold calcPhase
    split_ifs
    · cases ho : s.seq.op with
      | none => exact absurd ho hop
      | read => exact ⟨_, rfl⟩
      | level => exact ⟨_, rfl⟩
      | volume => exact ⟨_, rfl⟩
    · exact ⟨_, rfl⟩
  all_goals exact ⟨_, rfl⟩

theorem step_isNext {s : State} (h : PhaseInv s) (hl : s.params.legal = true) : ∃ t, step s = .next t := by
  cases hr : (nextInputs s).rst with
  | true => exact ⟨_, step_of_reset hl hr⟩
  | false =>
    by_cases hp : s.seq.phase = .idle
    · rw [step_of_idle hl hr hp]
      exact idleEdge_isNext _ s
    · rw [step_of_busy hl hr hp]
      exact sequencer_isNext _ (s := edgeBase s) h

/-- Settles O36: the only stop left under legal parameters is CALC without a command, which the invariant shuts out. -/
theorem stepIsTotalUnderTheInvariant : Obligations.StepIsTotalUnderTheInvariant := fun _ hs hl =>
  step_isNext (inv_iff.mp hs).1 hl

end Sys2Proof.Machine
end

section
/-! The phase after each edge (spec/40_wire_decoder.md R122): one equation per rule for the phase it ends in. -/

namespace Sys2Proof.Machine

/-! ### A busy edge -/

theorem precheckPhase_phase (rx : Bool) (s : State) :
    (precheckPhase rx s).seq.phase = if rx = true then .charge else .idle := by
  cases rx <;> rfl

theorem chargePhase_phase (rx : Bool) {s : State} (hp : s.seq.phase = .charge) :
    (chargePhase rx s).seq.phase =
      if s.seq.cnt.toNat ≠ s.params.tCharge - 1 then .charge
      else if rx = false then .idle else if s.cfg.addr = 0#4 then .waitHigh else .addrLow := by
  unfold chargePhase
  rw [ite_not]
  split_ifs
  · rfl
  · rfl
  · rfl
  · exact hp

theorem addrLowPhase_phase {s : State} (hp : s.seq.phase = .addrLow) :
    (addrLowPhase s).seq.phase = if s.seq.cnt.toNat = s.params.tAddrLow - 1 then .addrHigh else .addrLow := by
  unfold addrLowPhase
  split_ifs
  · rfl
  · exact hp

theorem addrHighPhase_phase {s : State} (hp : s.seq.phase = .addrHigh) :
    (addrHighPhase s).seq.phase =
      if s.seq.cnt.toNat ≠ s.params.tAddrHigh - 1 then .addrHigh
      else if s.seq.pulse = 1#4 then .waitHigh else .addrLow := by
  unfold addrHighPhase
  rw [ite_not]
  split_ifs
  · rfl
  · rfl
  · exact hp

theorem waitHighPhase_phase (rx : Bool) {s : State} (hp : s.seq.phase = .waitHigh) :
    (waitHighPhase rx s).seq.phase =
      if rx = true then .measHigh else if s.seq.cnt.toNat = waitLimit s then .idle else .waitHigh := by
  unfold waitHighPhase
  split_ifs
  · rfl
  · rfl
  · rfl
  · exact hp

theorem shiftBit_phase (b : Bool) (s : State) :
    (shiftBit b s).seq.phase = if s.seq.bitn = 7#3 ∧ s.seq.byten = 11 then .calc else .waitHigh := by
  by_cases hb : s.seq.bitn = 7#3
  · by_cases hy : s.seq.byten = 11
    · rw [shiftBit_ends_packet b hb hy, if_pos ⟨hb, hy⟩, enterPhase_phase]
    · rw [shiftBit_ends_byte b hb hy, if_neg fun h => hy h.2, enterPhase_phase]
  · rw [shiftBit_within_byte b hb, if_neg fun h => hb h.1, enterPhase_phase]

theorem measHighPhase_phase (rx : Bool) {s : State} (hp : s.seq.phase = .measHigh) :
    (measHighPhase rx s).seq.phase =
      if rx = true then (if s.seq.cnt.toNat = s.params.tBit then .idle else .measHigh)
      else if s.seq.bitn = 7#3 ∧ s.seq.byten = 11 then .calc else .waitHigh := by
  cases rx with
  | false => exact shiftBit_phase _ s
  | true =>
    rw [if_pos rfl]
    by_cases hc : s.seq.cnt.toNat = s.params.tBit
    · rw [measHighPhase_timeout hc, if_pos hc, errorExit_phase]
    · rw [measHighPhase_counts hc, if_neg hc, countTick_phase, hp]

theorem calcPhase_phase {s t : State} (hp : s.seq.phase = .calc) (h : calcPhase s = .next t) :
    t.seq.phase = if s.seq.cnt.toNat = s.params.tCalc - 1 then .idle else .calc := by
  rcases calcPhase_next h with ⟨hc, rfl⟩ | ⟨hc, ⟨-, -, rfl⟩ | ⟨-, -, rfl⟩ | ⟨-, rfl⟩ | ⟨-, rfl⟩⟩
  · rw [if_neg hc, countTick_phase, hp]
  all_goals rw [if_pos hc]; rfl

/-! ### An idle edge -/

/-- The phase that the acceptance of a command leads to. -/
def phaseAfter (s : State) : Instr → Phase
  | .nop => .idle
  | .read => if s.idleUs.toNat < s.cfg.minPause.toNat then .idle else .precheck
  | .level => .calc
  | .volume => .calc
  | .clear => .idle

theorem exec_phase {c : Instr} {s t : State} (hp : s.seq.phase = .idle) (h : exec c s = .next t) :
    t.seq.phase = phaseAfter s c := by
  rcases exec_next h with ⟨rfl, rfl⟩ | ⟨rfl, hlt, rfl⟩ | ⟨rfl, hge, rfl⟩ | ⟨rfl, rfl⟩ | ⟨rfl, rfl⟩ | ⟨rfl, rfl⟩
  · exact hp
  · rw [phaseAfter, if_pos hlt, rateLimitedExit_seq, hp]
  · rw [phaseAfter, if_neg (not_lt.mpr hge), startAttempt_phase]
  · rfl
  · rfl
  · exact hp

/-- An idle edge that accepts no command leaves the block idle. -/
theorem step_phase_of_idle {s t : State} (hr : (nextInputs s).rst = false) (hp : s.seq.phase = .idle)
    (h : step s = .next t) : t.seq.phase = (acceptedCommand s).elim .idle (phaseAfter s) := by
  rcases step_next_of_idle hr hp h with ⟨c, u, hacc, hx, rfl⟩ | ⟨hacc, rfl | rfl | ⟨r, w, rfl⟩⟩
  · rw [hacc, advance_seq, exec_phase hp hx]
    rfl
  all_goals rw [hacc]; exact hp

/-- Settles O37: an idle edge by the command it accepts, a busy one by the rule of its phase on `edgeBase`. -/
theorem phaseMovesOnlyAsListed : Obligations.PhaseMovesOnlyAsListed := by
  intro s t hr h
  have hl := (step_next h).1
  have next_of {u : State} (hu : step s = .next u) : t = u := by simpa using h.symm.trans hu
  split
  · rename_i hp
    rw [step_phase_of_idle hr hp h]
    rcases acceptedCommand s with - | (_ | _ | _ | _ | _) <;> rfl
  · rename_i hp
    rw [next_of (step_in_precheck ⟨hl, hr, hp⟩)]
    exact precheckPhase_phase _ _
  · rename_i hp
    rw [next_of (step_in_charge ⟨hl, hr, hp⟩)]
    exact chargePhase_phase _ (s := edgeBase s) hp
  · rename_i hp
    rw [next_of (step_in_addrLow ⟨hl, hr, hp⟩)]
    exact addrLowPhase_phase (s := edgeBase s) hp
  · rename_i hp
    rw [next_of (step_in_addrHigh ⟨hl, hr, hp⟩)]
    exact addrHighPhase_phase (s := edgeBase s) hp
  · rename_i hp
    rw [next_of (step_in_waitHigh ⟨hl, hr, hp⟩)]
    exact waitHighPhase_phase _ (s := edgeBase s) hp
  · rename_i hp
    rw [next_of (step_in_measHigh ⟨hl, hr, hp⟩)]
    exact measHighPhase_phase _ (s := edgeBase s) hp
  · rename_i hp
    rw [step_in_calc ⟨hl, hr, hp⟩] at h
    exact calcPhase_phase (s := edgeBase s) hp h

end Sys2Proof.Machine
end

section
/-! What an edge may change: the results only at a commit (spec/10_state.md R22, R28, R30), the host's registers only at an
idle write (spec/20_memory.md R58, R61), and the parameters never. -/

namespace Sys2Proof.Machine

/-! ### The results -/

/-- The reading, the checksum pair and `ERR`, which only a READ writes, are the same in both. -/
structure SameReading (r r' : Results) : Prop where
  err : r'.err = r.err
  csv : r'.csv = r.csv
  csExp : r'.csExp = r.csExp
  csAct : r'.csAct = r.csAct
  seg : r'.seg = r.seg
  segValid : r'.segValid = r.segValid

theorem SameReading.refl (r : Results) : SameReading r r := ⟨rfl, rfl, rfl, rfl, rfl, rfl⟩

theorem levelCommit_sameReading (s : State) : SameReading s.res (levelCommit s).res := by
  rw [levelCommit_res]
  exact ⟨rfl, rfl, rfl, rfl, rfl, rfl⟩

theorem volumeCommit_sameReading (s : State) : SameReading s.res (volumeCommit s).res := ⟨rfl, rfl, rfl, rfl, rfl, rfl⟩

/-- A sequencer rule that does not end in IDLE keeps the results; LEVEL's and VOLUME's CALC keep the reading. -/
theorem sequencer_res {rx : Bool} {s t : State} (hs : s.seq.phase ≠ .idle) (h : sequencer rx s = .next t) :
    (t.seq.phase ≠ .idle → t.res = s.res) ∧
      ((s.seq.phase = .calc ∧ s.seq.op ≠ .read) → SameReading s.res t.res) := by
  rcases sequencer_next_of_busy hs h with
    hg | ⟨hp, e, rfl⟩ | ⟨-, ⟨ho, rfl | rfl⟩ | ⟨-, rfl⟩ | ⟨-, rfl⟩⟩
  · exact ⟨fun _ => hg.res, fun _ => hg.res ▸ .refl _⟩
  · exact ⟨fun hn => absurd (errorExit_phase e s) hn, fun hc => absurd hc.1 hp⟩
  · exact ⟨fun hn => absurd (successCommit_phase s) hn, fun hc => absurd ho hc.2⟩
  · exact ⟨fun hn => absurd (errorExit_phase _ s) hn, fun hc => absurd ho hc.2⟩
  · exact ⟨fun hn => absurd (levelCommit_phase s) hn, fun _ => levelCommit_sameReading s⟩
  · exact ⟨fun hn => absurd (volumeCommit_phase s) hn, fun _ => volumeCommit_sameReading s⟩

/-- The acceptance of a command keeps the results, but for a RateLimited READ. -/
theorem exec_res {c : Instr} {s t : State} (h : exec c s = .next t) :
    t.res = s.res ∨ (c = .read ∧ s.idleUs.toNat < s.cfg.minPause.toNat) := by
  rcases exec_next h with ⟨-, rfl⟩ | ⟨rfl, hlt, rfl⟩ | ⟨-, -, rfl⟩ | ⟨-, rfl⟩ | ⟨-, rfl⟩ | ⟨-, rfl⟩
  · exact .inl rfl
  · exact .inr ⟨rfl, hlt⟩
  all_goals exact .inl rfl

theorem step_res_of_idle {s t : State} (hr : (nextInputs s).rst = false) (hp : s.seq.phase = .idle)
    (h : step s = .next t) :
    t.res = s.res ∨ (acceptedCommand s = some .read ∧ s.idleUs.toNat < s.cfg.minPause.toNat) := by
  rcases step_next_of_idle hr hp h with ⟨c, u, hacc, hx, rfl⟩ | ⟨-, rfl | rfl | ⟨r, w, rfl⟩⟩
  · rcases exec_res hx with hres | ⟨rfl, hlt⟩
    · exact .inl hres
    · exact .inr ⟨hacc, hlt⟩
  all_goals exact .inl rfl

/-- Settles O39: an idle edge by the command it accepts, a busy edge by what the sequencer can do. -/
theorem resultsChangeOnlyAtCommits : Obligations.ResultsChangeOnlyAtCommits := by
  intro s t hr h
  by_cases hp : s.seq.phase = .idle
  · refine ⟨fun hne => .inr ?_, fun _ hc => by simp [hp] at hc⟩
    exact (step_res_of_idle hr hp h).resolve_left hne
  · rw [step_of_busy (step_next h).1 hr hp] at h
    obtain ⟨hkeep, hreading⟩ := sequencer_res (s := edgeBase s) hp h
    refine ⟨fun hne => .inl ⟨hp, ?_⟩, fun hne hc => ?_⟩
    · by_contra hbusy
      exact hne (hkeep hbusy)
    · by_contra hop
      obtain ⟨herr, hcsv, hexp, hact, hseg, hvalid⟩ := hreading ⟨hc, hop⟩
      rcases hne with hne | hne | hne | hne | hne | hne
      · exact hne herr
      · exact hne hcsv
      · exact hne hexp
      · exact hne hact
      · exact hne hseg
      · exact hne hvalid

/-! ### The host's registers and the parameters -/

theorem sequencer_keeps_cfg_params {rx : Bool} {s t : State} (h : sequencer rx s = .next t) :
    t.cfg = s.cfg ∧ t.params = s.params := by
  by_cases hs : s.seq.phase = .idle
  · rw [sequencer, hs] at h
    obtain rfl : s = t := by simpa using h
    exact ⟨rfl, rfl⟩
  · rcases sequencer_next_of_busy hs h with hg | ⟨-, e, rfl⟩ | ⟨-, ⟨-, rfl | rfl⟩ | ⟨-, rfl⟩ | ⟨-, rfl⟩⟩
    · exact ⟨hg.cfg, hg.params⟩
    all_goals exact ⟨rfl, rfl⟩

theorem exec_keeps_cfg_params {c : Instr} {s t : State} (h : exec c s = .next t) :
    t.cfg = s.cfg ∧ t.params = s.params := by
  rcases exec_next h with ⟨-, rfl⟩ | ⟨-, -, rfl⟩ | ⟨-, -, rfl⟩ | ⟨-, rfl⟩ | ⟨-, rfl⟩ | ⟨-, rfl⟩ <;> exact ⟨rfl, rfl⟩

theorem command_keeps_cfg_params {w : Word} {s t : State} (h : command w s = .next t) :
    t.cfg = s.cfg ∧ t.params = s.params := by
  rcases command_next h with ⟨c, -, hx⟩ | ⟨e, -, rfl⟩
  · exact exec_keeps_cfg_params hx
  · exact ⟨rfl, rfl⟩

/-- An idle edge keeps the parameters, and without a write to an address other than `CMD` the host's registers. -/
theorem idleEdge_cfg_params {i : Inputs} {s t : State} (h : idleEdge i s = .next t) :
    (t.cfg ≠ s.cfg → i.isWrite = true ∧ i.addr ≠ 0#6) ∧ t.params = s.params := by
  rcases idleEdge_next h with ⟨-, rfl⟩ | ⟨hw, u, hu, rfl⟩
  · exact ⟨fun hne => absurd rfl hne, rfl⟩
  · rcases idleWrite_next hu with ⟨-, hc⟩ | ⟨ha, rfl⟩
    · obtain ⟨hcfg, hparams⟩ := command_keeps_cfg_params hc
      exact ⟨fun hne => absurd hcfg hne, hparams⟩
    · exact ⟨fun _ => ⟨hw, ha⟩, rfl⟩

/-- Settles O40: no sequencer rule and no command writes the host's registers. -/
theorem hostRegistersChangeOnlyByIdleWrites : Obligations.HostRegistersChangeOnlyByIdleWrites := by
  intro s t hr h hne
  rcases (step_next h).2 with ⟨hrst, -⟩ | ⟨-, hp, hs⟩ | ⟨-, -, hs⟩
  · exact absurd (hr.symm.trans hrst) Bool.false_ne_true
  · exact ⟨hp, (idleEdge_cfg_params hs).1 hne⟩
  · exact absurd (sequencer_keeps_cfg_params hs).1 hne

/-- Settles O41: neither a reset nor an idle nor a busy edge writes the parameters. -/
theorem noStepChangesTheParameters : Obligations.NoStepChangesTheParameters := by
  intro s t h
  rcases (step_next h).2 with ⟨-, rfl⟩ | ⟨-, -, hs⟩ | ⟨-, -, hs⟩
  · rfl
  · exact (idleEdge_cfg_params hs).2
  · exact (sequencer_keeps_cfg_params hs).2

end Sys2Proof.Machine
end

section
/-! The decoder (spec/30_encoding.md R70, R71), and single edges: the acceptance of a command
(spec/43_orchestrator_and_commands.md R170 to R181), a reserved code, the sticky flags (spec/10_state.md R29), illegal
parameters (spec/00_scope.md R9), and the edges of the precheck and of a wait (spec/40_wire_decoder.md R101, R110). -/

namespace Sys2Proof.Machine

/-! ### The decoder -/

/-- Settles O1. -/
theorem commandWordsDecode : Obligations.CommandWordsDecode := by
  unfold Obligations.CommandWordsDecode
  decide

/-- The decoder as a function of the code. -/
def decodeCode (c : BitVec 4) : Except DecodeError Instr :=
  match c.toNat with
  | 0 => .ok .nop
  | 1 => .ok .read
  | 2 => .ok .level
  | 3 => .ok .volume
  | 4 => .ok .clear
  | _ => .error (.reservedCode c)

theorem decode_eq_decodeCode (w : Word) : decode w = decodeCode (opcField w) := rfl

theorem decodeCode_eq_ok {c : BitVec 4} {i : Instr} : decodeCode c = .ok i ↔ c = opcOf i := by
  revert c
  cases i <;> decide

theorem decodeCode_eq_error {c : BitVec 4} (h : 5 ≤ c.toNat) : decodeCode c = .error (.reservedCode c) := by
  revert c
  decide

/-- The codes below 5 are those of the five commands. -/
theorem exists_opcOf_of_lt {c : BitVec 4} (h : c.toNat < 5) : ∃ i, c = opcOf i := by
  have hcode : ∀ c : BitVec 4, c.toNat < 5 → ∃ i ∈ [Instr.nop, .read, .level, .volume, .clear], c = opcOf i := by decide
  obtain ⟨i, -, hi⟩ := hcode c h
  exact ⟨i, hi⟩

/-- A word is no command exactly when its code is reserved. -/
theorem decode_eq_error_iff {w : Word} : (∃ e, decode w = .error e) ↔ 5 ≤ (opcField w).toNat := by
  rw [decode_eq_decodeCode]
  refine ⟨fun ⟨e, he⟩ => ?_, fun h => ⟨_, decodeCode_eq_error h⟩⟩
  by_contra hlt
  obtain ⟨i, hi⟩ := exists_opcOf_of_lt (not_le.mp hlt)
  cases (decodeCode_eq_ok.mpr hi).symm.trans he

theorem opcField_encode (i : Instr) : opcField (encode i) = opcOf i := by
  cases i <;> decide

/-- Settles O2: the decoder is `decodeCode` of the code. -/
theorem decodingReadsOnlyTheCode : Obligations.DecodingReadsOnlyTheCode :=
  ⟨fun _ _ => decodeCode_eq_ok, fun i => decodeCode_eq_ok.mpr (opcField_encode i), fun _ => decodeCode_eq_error⟩

/-! ### The acceptance of a command -/

/-- A write to `CMD` whose word decodes is accepted as that command. -/
theorem acceptedCommand_of_decode {s : State} {i : Instr} (hr : (nextInputs s).rst = false) (hp : s.seq.phase = .idle)
    (hw : (nextInputs s).isWrite = true) (ha : (nextInputs s).addr = 0#6) (hd : decode (nextInputs s).wdata = .ok i) :
    acceptedCommand s = some i := by
  rw [acceptedCommand_of_write hr hp hw ha, hd]
  rfl

/-- Settles O3: the write is accepted as the command, whose effect is the step's but for what every edge does. -/
theorem stepRunsTheDecodedCommand : Obligations.StepRunsTheDecodedCommand := by
  intro s i hl hr hp hsel hwe ha hd
  have hw : (nextInputs s).isWrite = true := by simp [Inputs.isWrite, hsel, hwe]
  obtain ⟨u, hu, hstep⟩ := step_of_acceptedCommand hl (acceptedCommand_of_decode hr hp hw ha hd)
  rw [hstep, hu]
  rfl

theorem exec_read_of_ge {s : State} (h : s.cfg.minPause.toNat ≤ s.idleUs.toNat) :
    exec .read s = .next (startAttempt s) :=
  if_neg (not_lt.mpr h)

/-- Settles O7. -/
theorem readStartsAnAttempt : Obligations.ReadStartsAnAttempt := fun _ _ h => exec_read_of_ge h

/-- Settles O9. -/
theorem levelIsAccepted : Obligations.LevelIsAccepted := fun s _ => exec_level s

/-- Settles O10. -/
theorem volumeIsAccepted : Obligations.VolumeIsAccepted := fun s _ => exec_volume s

/-! ### Reserved codes -/

/-- A reserved code at an idle edge sets `ILL`. -/
theorem step_of_reservedCode {s : State} (hl : s.params.legal = true) (h : WritesReservedCode s) :
    step s = .next (advance { s with ill := true }) := by
  obtain ⟨hr, hp, hw, ha, hcode⟩ := h
  obtain ⟨e, he⟩ := decode_eq_error_iff.mpr hcode
  obtain ⟨t, ht⟩ := idleEdge_isNext (nextInputs s) s
  rw [step_of_idle hl hr hp, ht]
  rcases idleEdge_next ht with ⟨hn, -⟩ | ⟨-, u, hu, rfl⟩
  · exact absurd (hn.symm.trans hw) Bool.false_ne_true
  · rcases idleWrite_next hu with ⟨-, hc⟩ | ⟨hne, -⟩
    · rcases command_next hc with ⟨i, hi, -⟩ | ⟨-, -, rfl⟩
      · cases hi.symm.trans he
      · rfl
    · exact absurd ha hne

/-- Settles O12. -/
theorem reservedCodeSetsOnlyIll : Obligations.ReservedCodeSetsOnlyIll := fun _ hl h => step_of_reservedCode hl h

/-- A reserved code is accepted as no command. -/
theorem acceptedCommand_of_reservedCode {s : State} (h : WritesReservedCode s) : acceptedCommand s = none := by
  obtain ⟨hr, hp, hw, ha, hcode⟩ := h
  obtain ⟨e, he⟩ := decode_eq_error_iff.mpr hcode
  rw [acceptedCommand_of_write hr hp hw ha, he]
  rfl

/-! ### The sticky flags -/

/-- Only CLEAR writes a sticky flag at its acceptance. -/
theorem exec_flags {c : Instr} {s t : State} (h : exec c s = .next t) :
    (t.ovr = true ↔ s.ovr = true ∧ c ≠ .clear) ∧ (t.ill = true ↔ s.ill = true ∧ c ≠ .clear) := by
  rcases exec_next h with ⟨rfl, rfl⟩ | ⟨rfl, -, rfl⟩ | ⟨rfl, -, rfl⟩ | ⟨rfl, rfl⟩ | ⟨rfl, rfl⟩ | ⟨rfl, rfl⟩ <;> simp

/-- An idle edge that accepts no command keeps `OVR`, and sets `ILL` for a reserved code alone. -/
theorem step_flags_of_no_command {s t : State} (hr : (nextInputs s).rst = false) (hp : s.seq.phase = .idle)
    (hn : acceptedCommand s = none) (h : step s = .next t) :
    t.ovr = s.ovr ∧ (t.ill = true ↔ s.ill = true ∨ WritesReservedCode s) := by
  have hl := (step_next h).1
  by_cases hres : WritesReservedCode s
  · obtain rfl : advance { s with ill := true } = t := by simpa using (step_of_reservedCode hl hres).symm.trans h
    exact ⟨rfl, iff_of_true rfl (.inr hres)⟩
  · simp only [hres, or_false]
    rw [step_of_idle hl hr hp] at h
    rcases idleEdge_next h with ⟨-, rfl⟩ | ⟨hw, u, hu, rfl⟩
    · exact ⟨rfl, Iff.rfl⟩
    · rcases idleWrite_next hu with ⟨ha, hc⟩ | ⟨-, rfl⟩
      · rcases command_next hc with ⟨i, hi, -⟩ | ⟨e, he, -⟩
        · simp [acceptedCommand_of_decode hr hp hw ha hi] at hn
        · exact absurd ⟨hr, hp, hw, ha, decode_eq_error_iff.mp ⟨e, he⟩⟩ hres
      · exact ⟨rfl, Iff.rfl⟩

/-- A busy edge sets `OVR` for a write, and keeps `ILL`. -/
theorem step_flags_of_busy {s t : State} (hr : (nextInputs s).rst = false) (hp : s.seq.phase ≠ .idle)
    (h : step s = .next t) : t.ovr = (s.ovr || (nextInputs s).isWrite) ∧ t.ill = s.ill := by
  rw [step_of_busy (step_next h).1 hr hp] at h
  exact sequencer_keeps_flags (s := edgeBase s) hp h

/-- Settles O43: an idle edge that accepts a command, one that accepts none, and a busy edge. -/
theorem stickyFlagsAreClearedOnlyByClear : Obligations.StickyFlagsAreClearedOnlyByClear := by
  intro s t hr h
  by_cases hp : s.seq.phase = .idle
  · cases hacc : acceptedCommand s with
    | none =>
      obtain ⟨hovr, hill⟩ := step_flags_of_no_command hr hp hacc h
      simp [hovr, hill, hp]
    | some c =>
      have hres : ¬ WritesReservedCode s := fun hw => by simp [acceptedCommand_of_reservedCode hw] at hacc
      obtain ⟨u, hu, hstep⟩ := step_of_acceptedCommand (step_next h).1 hacc
      obtain rfl : advance u = t := by simpa using hstep.symm.trans h
      obtain ⟨hovr, hill⟩ := exec_flags hu
      simp only [advance_ovr, advance_ill, hovr, hill, hres, hp, ne_eq, not_true_eq_false, false_and, or_false,
        Option.some.injEq, and_self]
  · have hacc : acceptedCommand s ≠ some .clear := fun hc => hp (idle_of_acceptedCommand hc).2
    have hres : ¬ WritesReservedCode s := fun hw => hp hw.2.1
    obtain ⟨hovr, hill⟩ := step_flags_of_busy hr hp h
    simp only [hovr, hill, Bool.or_eq_true, hacc, hres, hp, ne_eq, not_false_eq_true, and_true, true_and, or_false,
      and_self]

/-! ### Illegal parameters -/

/-- Settles O4: a step looks at the parameters first. -/
theorem illegalParametersAreRefused : Obligations.IllegalParametersAreRefused := fun s h =>
  if_neg fun hl => h ((legal_iff s.params).mp hl)

/-! ### The remaining edges of the wire -/

/-- Settles O18. -/
theorem precheckStartsTheCharge : Obligations.PrecheckStartsTheCharge := by
  intro s h hrx
  rw [step_in_precheck h, hrx, precheckPhase_high]
  rfl

/-- Settles O21, by the branches of `waitHighPhase`. -/
theorem waitingEdges : Obligations.WaitingEdges := by
  intro s h
  rw [step_in_waitHigh h]
  refine ⟨fun hrx => ?_, fun hrx hc => ?_⟩
  · rw [hrx, waitHighPhase_high]
    rfl
  · rw [hrx, waitHighPhase_counts (s := edgeBase s) hc]
    rfl

end Sys2Proof.Machine
end

section
/-! The register bus (spec/20_memory.md R51 to R58): the words as numbers, what a write of a register stores and leaves, and
what the acceptance of a command leaves on the bus. -/

namespace Sys2Proof.Machine

/-! ### The words -/

/-- The lower part of a concatenation has no bit above its width, so the parts add up. -/
theorem toNat_append_eq_add {m n : Nat} (x : BitVec m) (y : BitVec n) :
    (x ++ y).toNat = x.toNat * 2 ^ n + y.toNat := by
  rw [BitVec.toNat_append, Nat.shiftLeft_eq, Nat.mul_comm, Nat.two_pow_add_eq_or_of_lt y.isLt]

theorem cfgWord_toNat (c : HostRegs) :
    (cfgWord c).toNat = c.addr.toNat + 16 * c.segcnt.val + 256 * c.npoints.val + 65536 * c.invert.toNat := by
  have hseg : (BitVec.ofNat 4 c.segcnt.val).toNat = c.segcnt.val := by
    rw [BitVec.toNat_ofNat, Nat.mod_eq_of_lt (by omega)]
  have hpoints : (BitVec.ofNat 5 c.npoints.val).toNat = c.npoints.val := by
    rw [BitVec.toNat_ofNat, Nat.mod_eq_of_lt (by omega)]
  simp only [cfgWord, toNat_append_eq_add, hseg, hpoints, BitVec.toNat_ofBool, BitVec.toNat_ofNat]
  omega

theorem csumWord_toNat (exp : BitVec 12) (act : BitVec 16) :
    (act ++ 0#4 ++ exp).toNat = exp.toNat + 65536 * act.toNat := by
  simp only [toNat_append_eq_add, BitVec.toNat_ofNat]
  omega

/-- The lowest byte of a concatenation. -/
theorem extractLsb'_append_byte_low {m : Nat} (x : BitVec m) (b : Byte) : (x ++ b).extractLsb' 0 8 = b :=
  BitVec.extractLsb'_append_eq_right

/-- The bytes above the lowest. -/
theorem extractLsb'_append_byte_high {m : Nat} (x : BitVec m) (b : Byte) (k : Nat) :
    (x ++ b).extractLsb' (k + 8) 8 = x.extractLsb' k 8 := by
  rw [BitVec.extractLsb'_append_eq_of_le (by omega), Nat.add_sub_cancel]

theorem extractLsb'_four_bytes (b0 b1 b2 b3 : Byte) (j : Fin 4) :
    (b3 ++ b2 ++ b1 ++ b0).extractLsb' (8 * j.val) 8 = #v[b0, b1, b2, b3][j] := by
  match j with
  | 0 => exact extractLsb'_append_byte_low _ _
  | 1 => exact (extractLsb'_append_byte_high _ _ 0).trans (extractLsb'_append_byte_low _ _)
  | 2 =>
    exact (extractLsb'_append_byte_high _ _ 8).trans
      ((extractLsb'_append_byte_high _ _ 0).trans (extractLsb'_append_byte_low _ _))
  | 3 =>
    exact (extractLsb'_append_byte_high _ _ 16).trans ((extractLsb'_append_byte_high _ _ 8).trans
      ((extractLsb'_append_byte_high _ _ 0).trans BitVec.extractLsb'_eq_self))

/-- Byte `i` of the reading stands in byte `i mod 4` of the word `SEG0 + i / 4`. -/
theorem busRead_seg (s : State) (i : Fin 10) :
    (busRead s (BitVec.ofNat 6 (6 + i.val / 4))).extractLsb' (8 * (i.val % 4)) 8 = s.res.seg[i] := by
  match i with
  | 0 => exact extractLsb'_four_bytes _ _ _ _ 0
  | 1 => exact extractLsb'_four_bytes _ _ _ _ 1
  | 2 => exact extractLsb'_four_bytes _ _ _ _ 2
  | 3 => exact extractLsb'_four_bytes _ _ _ _ 3
  | 4 => exact extractLsb'_four_bytes _ _ _ _ 0
  | 5 => exact extractLsb'_four_bytes _ _ _ _ 1
  | 6 => exact extractLsb'_four_bytes _ _ _ _ 2
  | 7 => exact extractLsb'_four_bytes _ _ _ _ 3
  | 8 => exact extractLsb'_append_byte_low _ _
  | 9 => exact (extractLsb'_append_byte_high _ _ 0).trans (extractLsb'_append_byte_low _ _)

theorem hostReg_calLevel : ∀ k : Fin 16, hostReg (BitVec.ofNat 6 (0x20 + 2 * k.val)) = .calLevel k := by decide

theorem hostReg_calVol : ∀ k : Fin 16, hostReg (BitVec.ofNat 6 (0x21 + 2 * k.val)) = .calVol k := by decide

theorem hostReg_reserved : ∀ a : BusAddr, 0x0C ≤ a.toNat → a.toNat ≤ 0x1F → hostReg a = .reserved := by decide

/-- Settles O14: the address of each word, and the word as a number. -/
theorem busWordsShowTheRegisters : Obligations.BusWordsShowTheRegisters := by
  intro s
  refine ⟨rfl, rfl, cfgWord_toNat s.cfg, BitVec.toNat_setWidth_of_le (w' := 32) (b := s.cfg.minPause) (by decide),
    BitVec.toNat_setWidth_of_le (w' := 32) (b := s.res.level) (by decide), rfl, busRead_seg s, ?_, csumWord_toNat _ _,
    BitVec.toNat_setWidth_of_le (w' := 32) (b := s.idleUs) (by decide), rfl, fun a hlo hhi => ?_, fun k => ⟨?_, ?_⟩⟩
  · exact (BitVec.extractLsb'_append_eq_of_le (by decide)).trans BitVec.extractLsb'_append_eq_left
  · rw [busRead, hostReg_reserved a hlo hhi]
    rfl
  · rw [busRead, hostReg_calLevel k]
    exact BitVec.toNat_setWidth_of_le (by decide)
  · rw [busRead, hostReg_calVol k]
    exact BitVec.toNat_setWidth_of_le (by decide)

/-- Settles O5: the words of the reset state are 64 fixed numbers. -/
theorem resetEdgeWinsOverEverything : Obligations.ResetEdgeWinsOverEverything :=
  ⟨fun _ => step_of_reset, fun _ => rdata_of_read, rfl, rfl, rfl, by decide⟩

/-! ### A register write -/

/-- The words whose content depends on the results or on a flag. -/
def HostReg.showsOutcome : HostReg → Bool
  | .status => true
  | .level => true
  | .volume => true
  | .seg0 => true
  | .seg1 => true
  | .seg2 => true
  | .csum => true
  | _ => false

/-- The words in which a write of the host stores something (R58). -/
def HostReg.stores : HostReg → Bool
  | .cfg => true
  | .pace => true
  | .calLevel _ => true
  | .calVol _ => true
  | _ => false

/-- The addresses of the words that store. -/
theorem stores_hostReg : ∀ a : BusAddr, (hostReg a).stores = true ↔ a = 0x02#6 ∨ a = 0x03#6 ∨ 0x20 ≤ a.toNat := by
  decide

/-- The address of a word that stores; 0 for the others. -/
def storeAddr : HostReg → BusAddr
  | .cfg => 0x02#6
  | .pace => 0x03#6
  | .calLevel k => BitVec.ofNat 6 (0x20 + 2 * k.val)
  | .calVol k => BitVec.ofNat 6 (0x21 + 2 * k.val)
  | _ => 0#6

theorem storeAddr_hostReg : ∀ a : BusAddr, (hostReg a).stores = true → storeAddr (hostReg a) = a := by decide

/-- A word that stores nothing ignores a write. -/
theorem write_of_not_stores (c : HostRegs) (w : Word) {r : HostReg} (h : r.stores = false) : c.write w r = c := by
  cases r with
  | cfg | pace | calLevel | calVol => simp [HostReg.stores] at h
  | _ => rfl

/-- A write of a word leaves every other word. -/
theorem readReg_writeReg_of_ne (s : State) (w : Word) {r r' : HostReg} (h : r' ≠ r) :
    readReg (writeReg s r w) r' = readReg s r' := by
  by_cases hs : r.stores = true
  · cases r with
    | cfg =>
      cases r' with
      | cfg => exact absurd rfl h
      | _ => rfl
    | pace =>
      cases r' with
      | pace => exact absurd rfl h
      | _ => rfl
    | calLevel k =>
      cases r' with
      | calLevel k' =>
        have hk : k.val ≠ k'.val := fun he => h (by rw [Fin.ext he])
        exact congrArg (BitVec.setWidth 32) (Vector.getElem_set_ne k.isLt k'.isLt hk)
      | _ => rfl
    | calVol k =>
      cases r' with
      | calVol k' =>
        have hk : k.val ≠ k'.val := fun he => h (by rw [Fin.ext he])
        exact congrArg (BitVec.setWidth 32) (Vector.getElem_set_ne k.isLt k'.isLt hk)
      | _ => rfl
    | _ => simp [HostReg.stores] at hs
  · rw [writeReg_eq, write_of_not_stores _ _ (by simpa using hs)]

/-- What every edge does shows in the word `IDLE` alone. -/
theorem readReg_advance (s : State) {r : HostReg} (h : r ≠ .idle) : readReg (advance s) r = readReg s r := by
  cases r with
  | idle => exact absurd rfl h
  | _ => rfl

theorem busRead_advance (s : State) {a : BusAddr} (h : a ≠ 0x0A#6) : busRead (advance s) a = busRead s a := by
  have hidle : ∀ a : BusAddr, a ≠ 0x0A#6 → hostReg a ≠ .idle := by decide
  exact readReg_advance s (hidle a h)

/-- A write of a register leaves every word at another address, and its own when that stores nothing. -/
theorem busRead_writeReg (s : State) (w : Word) {a b : BusAddr}
    (h : a = b → a ≠ 0x02#6 ∧ a ≠ 0x03#6 ∧ a.toNat < 0x20) :
    busRead (writeReg s (hostReg b) w) a = busRead s a := by
  cases hs : (hostReg b).stores with
  | false => rw [writeReg_eq, write_of_not_stores _ _ hs]
  | true =>
    refine readReg_writeReg_of_ne s w fun he => ?_
    obtain rfl : a = b := by
      rw [← storeAddr_hostReg a (he ▸ hs), ← storeAddr_hostReg b hs, he]
    obtain ⟨h2, h3, hlt⟩ := h rfl
    rcases (stores_hostReg a).mp hs with h' | h' | h'
    · exact h2 h'
    · exact h3 h'
    · omega

/-- The lower part of a word, widened again, is the word under a mask. -/
theorem setWidth_extractLsb'_eq_and (w : Word) {n : Nat} {m : Word} (hm : m.toNat = 2 ^ n - 1) :
    (w.extractLsb' 0 n).setWidth 32 = w &&& m := by
  apply BitVec.eq_of_toNat_eq
  have hmod : w.toNat % 2 ^ n < 2 ^ 32 := (Nat.mod_le _ _).trans_lt w.isLt
  rw [BitVec.toNat_setWidth, BitVec.extractLsb'_toNat, Nat.shiftRight_zero, Nat.mod_eq_of_lt hmod, BitVec.toNat_and, hm,
    Nat.and_two_pow_sub_one_eq_mod]

/-- The step of a register write. -/
theorem step_of_register_write {s : State} (hl : s.params.legal = true) (hr : (nextInputs s).rst = false)
    (hp : s.seq.phase = .idle) (hw : (nextInputs s).isWrite = true) (ha : (nextInputs s).addr ≠ 0#6) :
    step s = .next (advance (writeReg s (hostReg (nextInputs s).addr) (nextInputs s).wdata)) := by
  obtain ⟨t, ht⟩ := idleEdge_isNext (nextInputs s) s
  rw [step_of_idle hl hr hp, ht]
  rcases idleEdge_next ht with ⟨hn, -⟩ | ⟨-, u, hu, rfl⟩
  · exact absurd (hn.symm.trans hw) Bool.false_ne_true
  · rcases idleWrite_next hu with ⟨h0, -⟩ | ⟨-, rfl⟩
    · exact absurd h0 ha
    · rfl

/-- Settles O15: the word written by what `HostRegs.write` stores in it, every other by `busRead_writeReg`. -/
theorem registerWriteReadsBack : Obligations.RegisterWriteReadsBack := by
  intro s hl hr hp hsel hwe ha
  have hw : (nextInputs s).isWrite = true := by simp [Inputs.isWrite, hsel, hwe]
  refine ⟨_, step_of_register_write hl hr hp hw ha, fun hcfg => ?_, fun hpace => ?_, fun k hk => ?_, fun k hk => ?_,
    fun a hidle hown => ?_, rfl, rfl, rfl, rfl, rfl, rfl, rfl⟩
  · rw [hcfg]
    exact ⟨rfl, rfl, rfl, rfl⟩
  · rw [hpace]
    exact setWidth_extractLsb'_eq_and (n := 24) (m := 0x00FFFFFF#32) _ rfl
  · rw [hk, busRead, hostReg_calLevel k, readReg_advance _ (by simp)]
    exact (congrArg (BitVec.setWidth 32) (Vector.getElem_set_self _)).trans (setWidth_extractLsb'_eq_and _ rfl)
  · rw [hk, busRead, hostReg_calVol k, readReg_advance _ (by simp)]
    exact (congrArg (BitVec.setWidth 32) (Vector.getElem_set_self _)).trans (setWidth_extractLsb'_eq_and _ rfl)
  · rw [busRead_advance _ hidle, busRead_writeReg s _ hown]

/-! ### The acceptance of a command -/

/-- Two states with the same configuration and pacing counter show the same words, but for those that show an outcome. -/
theorem readReg_congr_config {s t : State} (hcfg : t.cfg = s.cfg) (hidle : t.idleUs = s.idleUs) {r : HostReg}
    (h : r.showsOutcome = false) : readReg t r = readReg s r := by
  cases r with
  | status | level | volume | seg0 | seg1 | seg2 | csum => simp [HostReg.showsOutcome] at h
  | _ => simp only [readReg, hcfg, hidle]

/-- With the same results they differ in `STATUS` at most. -/
theorem readReg_congr_results {s t : State} (hcfg : t.cfg = s.cfg) (hidle : t.idleUs = s.idleUs) (hres : t.res = s.res)
    {r : HostReg} (h : r ≠ .status) : readReg t r = readReg s r := by
  cases r with
  | status => exact absurd rfl h
  | _ => simp only [readReg, hcfg, hidle, hres]

theorem exec_keeps_tx {c : Instr} {s t : State} (h : exec c s = .next t) : t.tx = s.tx := by
  rcases exec_next h with ⟨-, rfl⟩ | ⟨-, -, rfl⟩ | ⟨-, -, rfl⟩ | ⟨-, rfl⟩ | ⟨-, rfl⟩ | ⟨-, rfl⟩ <;> rfl

/-- Settles O13: a command keeps the configuration and the pacing counter, and the results unless it is RateLimited. -/
theorem acceptanceFrameOnTheBus : Obligations.AcceptanceFrameOnTheBus := by
  intro i s t _ h
  have hcfg := (exec_keeps_cfg_params h).1
  have hidle := exec_keeps_idleUs h
  refine ⟨fun a hstatus hlimited => ?_, hcfg, hidle, exec_keeps_tx h⟩
  rcases exec_res h with hres | ⟨hread, hlt⟩
  · have hne : ∀ a : BusAddr, a ≠ 0x01#6 → hostReg a ≠ .status := by decide
    exact readReg_congr_results hcfg hidle hres (hne a hstatus)
  · have hshows : ∀ a : BusAddr, a ≠ 0x01#6 →
        (a ≠ 0x04#6 ∧ a ≠ 0x05#6 ∧ a ≠ 0x06#6 ∧ a ≠ 0x07#6 ∧ a ≠ 0x08#6 ∧ a ≠ 0x09#6) →
        (hostReg a).showsOutcome = false := by decide
    exact readReg_congr_config hcfg hidle (hshows a hstatus (hlimited hread hlt))

end Sys2Proof.Machine
end

section
/-! A write at a busy edge (spec/20_memory.md R58): no rule of the sequencer looks at `OVR`, so the edge does what it would do
without the access, with `OVR` set. -/

namespace Sys2Proof.Machine

/-- The state with `OVR` set. -/
def setOvr (s : State) : State := { s with ovr := true }

@[simp] theorem setOvr_seq (s : State) : (setOvr s).seq = s.seq := rfl

/-! ### The rules -/

theorem precheckPhase_setOvr (rx : Bool) (s : State) : precheckPhase rx (setOvr s) = setOvr (precheckPhase rx s) := by
  cases rx <;> rfl

theorem chargePhase_setOvr (rx : Bool) (s : State) : chargePhase rx (setOvr s) = setOvr (chargePhase rx s) := by
  unfold chargePhase
  rw [apply_ite setOvr, apply_ite setOvr, apply_ite setOvr]
  rfl

theorem addrLowPhase_setOvr (s : State) : addrLowPhase (setOvr s) = setOvr (addrLowPhase s) := by
  unfold addrLowPhase
  rw [apply_ite setOvr]
  rfl

theorem addrHighPhase_setOvr (s : State) : addrHighPhase (setOvr s) = setOvr (addrHighPhase s) := by
  unfold addrHighPhase
  rw [apply_ite setOvr, apply_ite setOvr]
  rfl

theorem waitHighPhase_setOvr (rx : Bool) (s : State) : waitHighPhase rx (setOvr s) = setOvr (waitHighPhase rx s) := by
  unfold waitHighPhase
  rw [apply_ite setOvr, apply_ite setOvr, apply_ite setOvr]
  rfl

theorem shiftBit_setOvr (b : Bool) (s : State) : shiftBit b (setOvr s) = setOvr (shiftBit b s) := by
  unfold shiftBit
  dsimp only
  rw [apply_ite setOvr, apply_ite setOvr]
  rfl

theorem measHighPhase_setOvr (rx : Bool) (s : State) : measHighPhase rx (setOvr s) = setOvr (measHighPhase rx s) := by
  unfold measHighPhase
  rw [apply_ite setOvr, apply_ite setOvr, ← shiftBit_setOvr]
  rfl

theorem readCommit_setOvr (s : State) : readCommit (setOvr s) = setOvr (readCommit s) := by
  unfold readCommit
  rw [apply_ite setOvr]
  rfl

/-- Each commit of CALC writes `OVR` no more than its count does. -/
theorem calcPhase_setOvr (s : State) : calcPhase (setOvr s) = mapNext setOvr (calcPhase s) := by
  by_cases hc : s.seq.cnt.toNat = s.params.tCalc - 1
  · cases ho : s.seq.op with
    | none => simp [calcPhase, hc, ho, setOvr]
    | read => rw [calcPhase_read hc ho, calcPhase_read (s := setOvr s) hc ho, readCommit_setOvr, mapNext_next]
    | level =>
      rw [calcPhase_level hc ho, calcPhase_level (s := setOvr s) hc ho]
      rfl
    | volume =>
      rw [calcPhase_volume hc ho, calcPhase_volume (s := setOvr s) hc ho]
      rfl
  · rw [calcPhase_counts hc, calcPhase_counts (s := setOvr s) hc]
    rfl

/-- The sequencer does not look at `OVR`. -/
theorem sequencer_setOvr (rx : Bool) (s : State) : sequencer rx (setOvr s) = mapNext setOvr (sequencer rx s) := by
  unfold sequencer
  rw [setOvr_seq]
  split
  · rfl
  · exact congrArg Host.Outcome.next (precheckPhase_setOvr rx s)
  · exact congrArg Host.Outcome.next (chargePhase_setOvr rx s)
  · exact congrArg Host.Outcome.next (addrLowPhase_setOvr s)
  · exact congrArg Host.Outcome.next (addrHighPhase_setOvr s)
  · exact congrArg Host.Outcome.next (waitHighPhase_setOvr rx s)
  · exact congrArg Host.Outcome.next (measHighPhase_setOvr rx s)
  · exact calcPhase_setOvr s

/-! ### The edge -/

/-- A busy edge with a write. -/
theorem clockEdge_of_dropped_write {i : Inputs} {s : State} (hr : i.rst = false) (hp : s.seq.phase ≠ .idle)
    (hw : i.isWrite = true) : clockEdge i s = mapNext setOvr (sequencer i.rx (advance s)) := by
  have hw' : (i.sel && i.we) = true := hw
  rw [clockEdge, if_neg (by simp [hr]), if_neg hp, busyEdge, droppedWrite_eq, hw', Bool.or_true, ← sequencer_setOvr]
  rfl

/-- Settles O16: the edge with the write and the edge without the access run the same rule, one of them with `OVR` set. -/
theorem writeWhileBusyIsDropped : Obligations.WriteWhileBusyIsDropped := by
  intro s i rest hp hr hsel hwe
  rw [step_cons, step_cons]
  by_cases hl : s.params.legal = true
  · rw [if_pos hl, if_pos hl, clockEdge_of_dropped_write (s := { s with inputs := i :: rest }) hr hp (by simp [Inputs.isWrite, hsel, hwe]),
      clockEdge_of_no_write (isWrite_of_sel_false rfl), if_neg (by simp [hr]), if_neg hp]
    rfl
  · rw [if_neg hl, if_neg hl, mapNext_refused]

end Sys2Proof.Machine
end

section
/-! Where `rx` matters (spec/40_wire_decoder.md R107): at four kinds of edges the two samples lead to different phases, and no
other rule is given the sample or uses it. -/

namespace Sys2Proof.Machine

/-! ### The edges that use the sample -/

theorem precheckPhase_rx_ne (s s' : State) : precheckPhase false s ≠ precheckPhase true s' := by
  intro h
  have hphase := congrArg (·.seq.phase) h
  simp only [precheckPhase_phase] at hphase
  cases hphase

theorem chargePhase_rx_ne {s s' : State} (hp : s.seq.phase = .charge) (hp' : s'.seq.phase = .charge)
    (hc : s.seq.cnt.toNat = s.params.tCharge - 1) (hc' : s'.seq.cnt.toNat = s'.params.tCharge - 1) :
    chargePhase false s ≠ chargePhase true s' := by
  intro h
  have hphase := congrArg (·.seq.phase) h
  simp only [chargePhase_phase _ hp, chargePhase_phase _ hp', hc, hc'] at hphase
  split_ifs at hphase <;> simp_all

theorem waitHighPhase_rx_ne {s s' : State} (hp : s.seq.phase = .waitHigh) (hp' : s'.seq.phase = .waitHigh) :
    waitHighPhase false s ≠ waitHighPhase true s' := by
  intro h
  have hphase := congrArg (·.seq.phase) h
  simp only [waitHighPhase_phase _ hp, waitHighPhase_phase _ hp'] at hphase
  split_ifs at hphase <;> simp_all

theorem measHighPhase_rx_ne {s s' : State} (hp : s.seq.phase = .measHigh) (hp' : s'.seq.phase = .measHigh) :
    measHighPhase false s ≠ measHighPhase true s' := by
  intro h
  have hphase := congrArg (·.seq.phase) h
  simp only [measHighPhase_phase _ hp, measHighPhase_phase _ hp'] at hphase
  split_ifs at hphase <;> simp_all

/-- The edges at which the block uses the sample of `rx` (R107). -/
def UsesRx (s : State) : Prop :=
  s.seq.phase = .precheck ∨ s.seq.phase = .waitHigh ∨ s.seq.phase = .measHigh
    ∨ (s.seq.phase = .charge ∧ s.seq.cnt.toNat = s.params.tCharge - 1)

/-- At these edges the two samples lead to different steps. -/
theorem step_rx_ne {s : State} (h : UsesRx s) (hl : s.params.legal = true) {i : Inputs} (hr : i.rst = false)
    (rest : List Inputs) :
    step { s with inputs := { i with rx := false } :: rest } ≠ step { s with inputs := { i with rx := true } :: rest } := by
  have working (b : Bool) {p : Phase} (hp : s.seq.phase = p) :
      WorkingIn p { s with inputs := { i with rx := b } :: rest } := ⟨hl, hr, hp⟩
  rcases h with hp | hp | hp | ⟨hp, hc⟩
  · rw [step_in_precheck (working false hp), step_in_precheck (working true hp)]
    exact fun he => precheckPhase_rx_ne _ _ (Host.Outcome.next.inj he)
  · rw [step_in_waitHigh (working false hp), step_in_waitHigh (working true hp)]
    refine fun he => waitHighPhase_rx_ne ?_ ?_ (Host.Outcome.next.inj he) <;> exact hp
  · rw [step_in_measHigh (working false hp), step_in_measHigh (working true hp)]
    refine fun he => measHighPhase_rx_ne ?_ ?_ (Host.Outcome.next.inj he) <;> exact hp
  · rw [step_in_charge (working false hp), step_in_charge (working true hp)]
    refine fun he => chargePhase_rx_ne ?_ ?_ ?_ ?_ (Host.Outcome.next.inj he)
    exacts [hp, hp, hc, hc]

/-! ### The other edges -/

/-- At the other edges the sequencer does not use the sample. -/
theorem sequencer_congr_rx {s : State} (h : ¬ UsesRx s) (rx rx' : Bool) : sequencer rx s = sequencer rx' s := by
  unfold sequencer
  split
  · rfl
  · exact absurd (.inl ‹_›) h
  · have hc : s.seq.cnt.toNat ≠ s.params.tCharge - 1 := fun hc => h (.inr (.inr (.inr ⟨‹_›, hc⟩)))
    rw [chargePhase_counts rx hc, chargePhase_counts rx' hc]
  · rfl
  · rfl
  · exact absurd (.inr (.inl ‹_›)) h
  · exact absurd (.inr (.inr (.inl ‹_›))) h
  · rfl

/-- A command does not look at the inputs of its edge, which every edge then takes off the queue. -/
theorem exec_congr_inputs (c : Instr) (s : State) (i j : Inputs) (rest : List Inputs) :
    mapNext advance (exec c { s with inputs := i :: rest }) = mapNext advance (exec c { s with inputs := j :: rest }) := by
  cases c with
  | read =>
    by_cases h : s.idleUs.toNat < s.cfg.minPause.toNat
    · rw [exec_read_of_lt (s := { s with inputs := i :: rest }) h, exec_read_of_lt (s := { s with inputs := j :: rest }) h]
      rfl
    · have h' : s.cfg.minPause.toNat ≤ s.idleUs.toNat := not_lt.mp h
      rw [exec_read_of_ge (s := { s with inputs := i :: rest }) h', exec_read_of_ge (s := { s with inputs := j :: rest }) h']
      rfl
  | _ => rfl

theorem idleWrite_congr_inputs (a : BusAddr) (w : Word) (s : State) (i j : Inputs) (rest : List Inputs) :
    mapNext advance (idleWrite a w { s with inputs := i :: rest }) =
      mapNext advance (idleWrite a w { s with inputs := j :: rest }) := by
  unfold idleWrite
  split
  · unfold command
    split
    · exact exec_congr_inputs _ s i j rest
    · rfl
  · rfl

/-- At these edges the two samples lead to the same step. -/
theorem step_congr_rx {s : State} (h : ¬ UsesRx s) (i : Inputs) (rest : List Inputs) :
    step { s with inputs := { i with rx := false } :: rest } = step { s with inputs := { i with rx := true } :: rest } := by
  rw [step_cons, step_cons]
  congr 1
  unfold clockEdge
  dsimp only
  split_ifs
  · rfl
  · unfold idleEdge
    dsimp only
    split_ifs
    · exact idleWrite_congr_inputs _ _ s _ _ rest
    · rfl
  · unfold busyEdge
    rw [droppedWrite_eq, droppedWrite_eq]
    exact sequencer_congr_rx (s := advance { s with ovr := s.ovr || (i.sel && i.we), inputs := i :: rest }) h _ _

/-- Settles O44. -/
theorem rxMattersExactlyWhereStated : Obligations.RxMattersExactlyWhereStated := by
  intro s i rest
  split_ifs with h
  · exact fun hl hr => step_rx_ne h hl hr rest
  · exact step_congr_rx h i rest

end Sys2Proof.Machine
end

section
/-! The level estimator (spec/41_level_estimator.md): the scan by recursion on the number of segments, the capped sum by
recursion on the wet segments, and the two computations of the level compared (section 3). -/

namespace Sys2Proof.Machine

/-! ### The legal constants -/

/-- The legal estimator constants as far as the rules need them (spec/00_scope.md R7). -/
structure EstimatorConstants (p : Params) : Prop where
  noiseFloor_pos : 1 ≤ p.noiseFloor
  baseline_pos : 1 ≤ p.baseline
  baseline_le : p.baseline ≤ 255
  damp_pos : 1 ≤ p.dampQ8
  damp_le : p.dampQ8 ≤ 255
  capTop_ge : 4096 ≤ p.capTop

theorem EstimatorConstants.of_legal {p : Params} (h : p.legal = true) : EstimatorConstants p := by
  have := (legal_iff p).mp h
  constructor <;> omega

/-! ### The scan -/

/-- Entry `k` of a reading, as a number. -/
def segValue (r : Vector Byte 10) (k : Nat) : Nat := (r.toList.getD k 0#8).toNat

theorem segValue_of_lt (r : Vector Byte 10) {k : Nat} (hk : k < 10) : segValue r k = r[k].toNat := by
  simp [segValue, List.getD, hk]

/-- The scan of one more segment begins with it. -/
theorem scanOrder_succ (r : Vector Byte 10) {n : Nat} (hn : n < 10) :
    scanOrder r (n + 1) = segValue r n :: scanOrder r n := by
  rw [scanOrder, List.take_add_one, List.reverse_append, scanOrder, segValue_of_lt r hn]
  simp [hn]

theorem wetSegments_zero (p : Params) (r : Vector Byte 10) : wetSegments p r 0 = [] := rfl

/-- A dry segment ends the scan. -/
theorem wetSegments_of_dry {p : Params} {r : Vector Byte 10} {n : Nat} (hn : n < 10) (h : segValue r n < p.noiseFloor) :
    wetSegments p r (n + 1) = [] := by
  rw [wetSegments, scanOrder_succ r hn, List.takeWhile_cons_of_neg (by simpa using h)]

/-- A wet segment goes before those of the scan above it. -/
theorem wetSegments_of_wet {p : Params} {r : Vector Byte 10} {n : Nat} (hn : n < 10) (h : p.noiseFloor ≤ segValue r n) :
    wetSegments p r (n + 1) = segValue r n :: wetSegments p r n := by
  rw [wetSegments, scanOrder_succ r hn, List.takeWhile_cons_of_pos (by simpa using h), wetSegments]

/-- Two readings that agree from a dry entry, or entry 0, down to the bottom have the same wet segments. -/
theorem wetSegments_congr {p : Params} {r r' : Vector Byte 10} {n k : Nat} (hn : n ≤ 10)
    (hk : k = 0 ∨ (k < n ∧ segValue r k < p.noiseFloor))
    (h : ∀ j, k ≤ j → j < n → segValue r' j = segValue r j) : wetSegments p r' n = wetSegments p r n := by
  induction n with
  | zero => rfl
  | succ n ih =>
    have hbottom : segValue r' n = segValue r n := h n (by omega) n.lt_succ_self
    by_cases hwet : p.noiseFloor ≤ segValue r n
    · have hk' : k = 0 ∨ (k < n ∧ segValue r k < p.noiseFloor) := hk.imp_right fun ⟨hlt, hdry⟩ => by
        refine ⟨lt_of_le_of_ne (Nat.le_of_lt_succ hlt) fun he => ?_, hdry⟩
        rw [he] at hdry
        exact absurd hwet (not_le.mpr hdry)
      rw [wetSegments_of_wet hn hwet, wetSegments_of_wet hn (hbottom ▸ hwet), hbottom,
        ih (by omega) hk' fun j hj hjn => h j hj (by omega)]
    · rw [wetSegments_of_dry hn (by omega), wetSegments_of_dry hn (by omega)]

/-! ### The capped sum -/

theorem cappedContributions_singleton (p : Params) (c : Nat) : cappedContributions p [c] = [min c p.capTop] := rfl

theorem cappedContributions_cons_cons (p : Params) (c d : Nat) (cs : List Nat) :
    cappedContributions p (c :: d :: cs) = min c Config.one :: cappedContributions p (d :: cs) := rfl

/-- The sum of the capped contributions of wet segments, before it is saturated (R133 to R135). -/
def cappedSum (p : Params) (prior : Nat) (ws : List Nat) : Nat := (cappedContributions p (contributions p prior ws)).sum

theorem estimateLevel_eq (p : Params) (r : Vector Byte 10) (n : Nat) :
    estimateLevel p r n = min (cappedSum p p.baseline (wetSegments p r n)) (n * 4096) := by
  rw [estimateLevel, cappedSum, Config.one]

@[simp] theorem cappedSum_nil (p : Params) (prior : Nat) : cappedSum p prior [] = 0 := rfl

@[simp] theorem cappedSum_singleton (p : Params) (prior v : Nat) :
    cappedSum p prior [v] = min (contribution p v prior) p.capTop := by
  rw [cappedSum, contributions, contributions, cappedContributions_singleton, List.sum_singleton]

/-- A wet segment with another above it is capped at 1. -/
theorem cappedSum_cons_cons (p : Params) (prior v w : Nat) (ws : List Nat) :
    cappedSum p prior (v :: w :: ws) = min (contribution p v prior) 4096 + cappedSum p v (w :: ws) := by
  rw [cappedSum, contributions, contributions, cappedContributions_cons_cons, List.sum_cons]
  rfl

/-- The sum of `m` wet segments is at most that of `m - 1` caps of 1 and one of `CAP_TOP`. -/
theorem cappedSum_le (p : Params) (prior v : Nat) (ws : List Nat) :
    cappedSum p prior (v :: ws) ≤ ws.length * 4096 + p.capTop := by
  induction ws generalizing prior v with
  | nil => simp
  | cons w ws ih =>
    have hrest := ih v w
    rw [cappedSum_cons_cons, List.length_cons]
    omega

/-- Settles O45: the saturation bounds the level, and so do the caps. -/
theorem levelNeverExceedsTheSegments : Obligations.LevelNeverExceedsTheSegments := by
  intro p r n _ hn
  have hle := estimateLevel_le p r n
  refine ⟨hle, by omega, fun hwet => ?_⟩
  obtain ⟨v, ws, hws⟩ := List.exists_cons_of_length_pos hwet
  have hsum := cappedSum_le p p.baseline v ws
  rw [estimateLevel_eq, hws, List.length_cons, Nat.add_sub_cancel]
  omega

/-- The first wet segment counts for something: the baseline and the damping are below 256. -/
theorem contribution_baseline_pos {p : Params} (h : EstimatorConstants p) {v : Nat} (hv : 1 ≤ v) :
    1 ≤ contribution p v p.baseline := by
  have hpos : 0 < p.baseline * p.dampQ8 := Nat.mul_pos h.baseline_pos h.damp_pos
  rw [contribution, Nat.one_le_div_iff hpos]
  calc
    p.baseline * p.dampQ8 ≤ 255 * 255 := Nat.mul_le_mul h.baseline_le h.damp_le
    _ ≤ 1 * 2 ^ 20 := by norm_num
    _ ≤ v * 2 ^ 20 := Nat.mul_le_mul_right _ hv

theorem cappedSum_baseline_pos {p : Params} (h : EstimatorConstants p) {v : Nat} (hv : 1 ≤ v) (ws : List Nat) :
    1 ≤ cappedSum p p.baseline (v :: ws) := by
  have hfirst := contribution_baseline_pos h hv
  have hcap := h.capTop_ge
  cases ws with
  | nil =>
    rw [cappedSum_singleton]
    omega
  | cons w ws =>
    rw [cappedSum_cons_cons]
    omega

/-- Settles O46: a dry bottom leaves no wet segment, a wet one counts for something. -/
theorem levelIsZeroExactlyWhenTheBottomIsDry : Obligations.LevelIsZeroExactlyWhenTheBottomIsDry := by
  intro p r n hl hn
  have hp := EstimatorConstants.of_legal hl
  cases n with
  | zero => simp [estimateLevel_eq]
  | succ n =>
    change _ ↔ n + 1 = 0 ∨ segValue r n < p.noiseFloor
    rw [estimateLevel_eq]
    by_cases hwet : p.noiseFloor ≤ segValue r n
    · have hsum := cappedSum_baseline_pos hp (hp.noiseFloor_pos.trans hwet) (wetSegments p r n)
      rw [wetSegments_of_wet hn hwet]
      omega
    · rw [wetSegments_of_dry hn (by omega), cappedSum_nil]
      omega

/-- Settles O47: readings that agree on what the scan reaches have the same wet segments. -/
theorem levelIgnoresWhatTheScanDoesNotReach : Obligations.LevelIgnoresWhatTheScanDoesNotReach := by
  intro p r r' n k _ hn hk h
  rw [estimateLevel_eq, estimateLevel_eq,
    wetSegments_congr hn hk fun j hj hjn => congrArg BitVec.toNat (h j hj hjn)]

/-! ### The topmost wet segment -/

theorem segValue_set_self (r : Vector Byte 10) (k : Fin 10) (v : Byte) : segValue (r.set k.val v k.isLt) k = v.toNat := by
  rw [segValue_of_lt _ k.isLt, Vector.getElem_set_self]

theorem segValue_set_of_ne (r : Vector Byte 10) (k : Fin 10) (v : Byte) {j : Nat} (hj : j < 10) (h : k.val ≠ j) :
    segValue (r.set k.val v k.isLt) j = segValue r j := by
  rw [segValue_of_lt _ hj, segValue_of_lt _ hj, Vector.getElem_set_ne _ _ h]

/-- Raising the topmost wet segment changes the last of the wet segments and no other. -/
theorem wetSegments_set_topmost {p : Params} {r : Vector Byte 10} {n : Nat} {k : Fin 10} {v : Byte} (hn : n ≤ 10)
    (hwet : 1 ≤ (wetSegments p r n).length) (hk : k.val + (wetSegments p r n).length = n)
    (hv : segValue r k ≤ v.toNat) :
    ∃ ws, wetSegments p r n = ws ++ [segValue r k]
      ∧ wetSegments p (r.set k.val v k.isLt) n = ws ++ [v.toNat] := by
  induction n with
  | zero => simp [wetSegments_zero] at hwet
  | succ n ih =>
    by_cases hbottom : p.noiseFloor ≤ segValue r n
    · rw [wetSegments_of_wet hn hbottom, List.length_cons] at hk
      rw [wetSegments_of_wet hn hbottom]
      by_cases hkn : k.val = n
      · have hnil : wetSegments p r n = [] := List.length_eq_zero_iff.mp (by omega)
        have hsame : wetSegments p (r.set k.val v k.isLt) n = wetSegments p r n :=
          wetSegments_congr (by omega) (.inl rfl) fun j _ hj => segValue_set_of_ne r k v (by omega) (by omega)
        have hself : segValue (r.set k.val v k.isLt) n = v.toNat := hkn ▸ segValue_set_self r k v
        refine ⟨[], by rw [hnil, hkn]; rfl, ?_⟩
        rw [wetSegments_of_wet hn (by rw [hself]; rw [hkn] at hv; omega), hself, hsame, hnil]
        rfl
      · have hsame : segValue (r.set k.val v k.isLt) n = segValue r n := segValue_set_of_ne r k v hn hkn
        obtain ⟨ws, hws, hws'⟩ := ih (by omega) (by omega) (by omega)
        refine ⟨segValue r n :: ws, by rw [hws]; rfl, ?_⟩
        rw [wetSegments_of_wet hn (by rwa [hsame]), hsame, hws']
        rfl
    · rw [wetSegments_of_dry hn (by omega)] at hwet
      simp at hwet

theorem contribution_mono (p : Params) (prior : Nat) {v w : Nat} (h : v ≤ w) :
    contribution p v prior ≤ contribution p w prior :=
  Nat.div_le_div_right (Nat.mul_le_mul_right _ h)

/-- Raising the last wet segment raises no reference of another. -/
theorem cappedSum_mono_last (p : Params) (prior : Nat) (ws : List Nat) {v w : Nat} (h : v ≤ w) :
    cappedSum p prior (ws ++ [v]) ≤ cappedSum p prior (ws ++ [w]) := by
  induction ws generalizing prior with
  | nil =>
    have := contribution_mono p prior h
    simp only [List.nil_append, cappedSum_singleton]
    omega
  | cons u us ih =>
    have hrest := ih u
    cases us with
    | nil =>
      simp only [List.cons_append, List.nil_append, cappedSum_cons_cons] at hrest ⊢
      omega
    | cons x xs =>
      simp only [List.cons_append, cappedSum_cons_cons] at hrest ⊢
      omega

/-- Settles O48: the wet segments differ in the last alone. -/
theorem raisingTheTopmostWetSegmentNeverLowersTheLevel :
    Obligations.RaisingTheTopmostWetSegmentNeverLowersTheLevel := by
  intro p r n k v _ hn hwet hk hv
  obtain ⟨ws, hws, hws'⟩ := wetSegments_set_topmost hn hwet hk (v := v) (by rw [segValue_of_lt r k.isLt]; exact hv)
  have hmono := cappedSum_mono_last p p.baseline ws (v := segValue r k) (w := v.toNat)
    (by rw [segValue_of_lt r k.isLt]; exact hv)
  rw [estimateLevel_eq, estimateLevel_eq, hws, hws']
  omega

/-- Settles O49. -/
theorem raisingASegmentCanLowerTheLevel : Obligations.RaisingASegmentCanLowerTheLevel := by
  unfold Obligations.RaisingASegmentCanLowerTheLevel
  decide

/-! ### The sequential listing -/

/-- In the loop the contribution `c` of the segment before is pending, capped at `CAP_TOP`; it is the first of the
contributions still to be capped and added. -/
theorem scanLoop_eq {p : Params} (h : 4096 ≤ p.capTop) (prior acc c : Nat) (l : List Nat) :
    scanLoop p prior acc (min c p.capTop) l =
      acc + (cappedContributions p
        (c :: contributions p prior (l.takeWhile fun v => decide (p.noiseFloor ≤ v)))).sum := by
  induction l generalizing prior acc c with
  | nil => simp [scanLoop, contributions, cappedContributions]
  | cons v l ih =>
    by_cases hdry : v < p.noiseFloor
    · rw [scanLoop, if_pos hdry, List.takeWhile_cons_of_neg (by simpa using hdry)]
      simp [contributions, cappedContributions]
    · rw [scanLoop, if_neg hdry, List.takeWhile_cons_of_pos (by simpa using hdry), ih, contributions,
        cappedContributions_cons_cons p c, List.sum_cons, min_assoc, min_eq_right (show Config.one ≤ p.capTop from h),
        Nat.add_assoc]

/-- With nothing pending the loop adds up the capped contributions. -/
theorem scanLoop_start {p : Params} (h : 4096 ≤ p.capTop) (prior : Nat) (l : List Nat) :
    scanLoop p prior 0 0 l = cappedSum p prior (l.takeWhile fun v => decide (p.noiseFloor ≤ v)) := by
  have hloop := scanLoop_eq h prior 0 0 l
  rw [Nat.zero_min, Nat.zero_add] at hloop
  rw [hloop, cappedSum]
  cases contributions p prior (l.takeWhile fun v => decide (p.noiseFloor ≤ v)) with
  | nil => simp [cappedContributions]
  | cons c cs => simp [cappedContributions]

/-- Settles O50. -/
theorem sequentialListingComputesTheLevel : Obligations.SequentialListingComputesTheLevel := by
  intro p r n hl _
  rw [estimateLevelSequential, scanLoop_start (EstimatorConstants.of_legal hl).capTop_ge]
  rfl

end Sys2Proof.Machine
end

section
/-! The volume between two entries and its shape over the whole table (spec/42_volume_interpolator.md R154 to R159). -/

namespace Sys2Proof.Machine

theorem pointAt_of_getElem? {pts : List CalPoint} {k : Nat} {c : CalPoint} (h : pts[k]? = some c) :
    pointAt pts k = c := by
  rw [pointAt, List.getD_eq_getElem?_getD, h, Option.getD_some]

theorem lt_length_of_getElem? {pts : List CalPoint} {k : Nat} {c : CalPoint} (h : pts[k]? = some c) :
    k < pts.length :=
  (List.getElem?_eq_some_iff.mp h).1

/-- Where the search stops within the table, the volume is interpolated. -/
theorem plainVolume_between {pts : List CalPoint} {l : Nat} (hpos : 1 ≤ searchPoint pts l)
    (hlt : searchPoint pts l < pts.length) :
    plainVolume pts l =
      interpolate (pointAt pts (searchPoint pts l - 1)) (pointAt pts (searchPoint pts l)) l := by
  rw [plainVolume, if_neg (by omega), if_neg (by omega)]

/-! ### One floor -/

/-- The interpolated volume is the linear one rounded down. -/
theorem interpolate_floor {low high : CalPoint} {l : Nat} (h : low.level < high.level) :
    let dl : Int := (l : Int) - low.level
    let dL : Int := (high.level : Int) - low.level
    let dV : Int := (high.vol : Int) - low.vol
    (interpolate low high l - low.vol) * dL ≤ dl * dV ∧ dl * dV < (interpolate low high l - low.vol + 1) * dL := by
  intro dl dL dV
  have hpos : 0 < dL := by omega
  have hfloor : interpolate low high l - low.vol = dl * dV / dL := add_sub_cancel_left _ _
  rw [hfloor]
  exact ⟨Int.ediv_mul_le _ hpos.ne', Int.lt_ediv_add_one_mul_self _ hpos⟩

/-- Settles O53: the search gives the order of the levels, and the division the floor. -/
theorem interpolationIsOneFloor : Obligations.InterpolationIsOneFloor := by
  rintro pts l j low high rfl hpos hlow hhigh
  have hlt := lt_length_of_getElem? hhigh
  have hne : pts ≠ [] := List.ne_nil_of_length_pos (by omega)
  have hle : low.level ≤ l := by
    rw [← pointAt_of_getElem? hlow]
    exact level_le_of_lt_searchPoint (by omega)
  have hgt : l < high.level := by
    rw [← pointAt_of_getElem? hhigh]
    exact lt_level_searchPoint hlt
  rw [estimateVolume_plain hne, plainVolume_between hpos hlt, pointAt_of_getElem? hlow, pointAt_of_getElem? hhigh]
  obtain ⟨hfloor, hnext⟩ := interpolate_floor (l := l) (hle.trans_lt hgt)
  obtain ⟨hmin, hmax⟩ := interpolate_mem_Icc (a := min low.vol high.vol) (b := max low.vol high.vol) hle hgt
    (by omega) (by omega)
  push_cast at hmin hmax
  exact ⟨by omega, by omega, by omega, hfloor, hnext, hmin, hmax⟩

/-! ### Breakpoints -/

/-- On strictly increasing levels the search for the level of an entry stops at the next one. -/
theorem searchPoint_breakpoint {pts : List CalPoint} {k : Nat} (hk : k < pts.length)
    (h : (pts.map CalPoint.level).Pairwise (· < ·)) : searchPoint pts pts[k].level = k + 1 := by
  have hlt : ∀ i j : Nat, ∀ hj : j < pts.length, ∀ hij : i < j, pts[i].level < pts[j].level := fun i j hj hij =>
    List.pairwise_iff_getElem.mp (List.pairwise_map.mp h) i j (by omega) hj hij
  have hstop := searchPoint_le_length pts pts[k].level
  refine le_antisymm ?_ ?_
  · by_contra hgt
    have hnext : (pointAt pts (k + 1)).level ≤ pts[k].level := level_le_of_lt_searchPoint (by omega)
    rw [pointAt, List.getD_eq_getElem _ _ (by omega)] at hnext
    exact absurd (hlt k (k + 1) (by omega) (by omega)) (not_lt.mpr hnext)
  · by_contra hle
    have hhigh := lt_level_searchPoint (pts := pts) (l := pts[k].level) (by omega)
    rw [pointAt, List.getD_eq_getElem _ _ (by omega)] at hhigh
    rcases (show searchPoint pts pts[k].level ≤ k by omega).eq_or_lt with he | hl
    · simp [he] at hhigh
    · exact absurd (hlt _ k hk hl) (not_lt.mpr hhigh.le)

/-- At the level of its first point the interpolation gives that point's volume. -/
theorem interpolate_self (low high : CalPoint) : interpolate low high low.level = low.vol := by
  simp [interpolate]

/-- Settles O54: the search stops after the breakpoint, which is then the lower point or the last one. -/
theorem volumeIsExactAtBreakpoints : Obligations.VolumeIsExactAtBreakpoints := by
  intro pts k c h hc
  obtain ⟨hk, rfl⟩ := List.getElem?_eq_some_iff.mp hc
  have hstop := searchPoint_breakpoint hk h
  have hpoint : pointAt pts k = pts[k] := pointAt_of_getElem? hc
  rw [estimateVolume_plain (List.ne_nil_of_length_pos (by omega))]
  refine congrArg _ ?_
  rcases (show k + 1 ≤ pts.length by omega).eq_or_lt with hlast | hlt
  · rw [plainVolume, hstop, if_neg (by omega), if_pos hlast, ← hlast, Nat.add_sub_cancel, hpoint]
  · rw [plainVolume_between (by omega) (by omega), hstop, Nat.add_sub_cancel, hpoint, interpolate_self]

/-! ### Bounds -/

/-- Settles O56. -/
theorem volumeLiesBetweenTheEntries : Obligations.VolumeLiesBetweenTheEntries := by
  intro pts l lo hi hne h
  rw [estimateVolume_plain hne]
  exact plainVolume_mem_Icc hne h l

/-- Before inversion no volume is negative. -/
theorem estimateVolume_plain_nonneg (lv : Bool) (l : Nat) (pts : List CalPoint) :
    0 ≤ (estimateVolume lv l pts false).2 := by
  cases lv with
  | false => rw [estimateVolume_undefined]
  | true =>
    by_cases hne : pts = []
    · rw [hne, estimateVolume_nil]
    · rw [estimateVolume_plain hne]
      have hmax : ∀ c ∈ pts, 0 ≤ c.vol ∧ c.vol ≤ (pts.map CalPoint.vol).sum := fun c hc =>
        ⟨Nat.zero_le _, List.single_le_sum (fun _ _ => Nat.zero_le _) _ (List.mem_map_of_mem hc)⟩
      exact (plainVolume_mem_Icc hne hmax l).1

/-- Settles O58, from the 25-bit range of every estimated volume. -/
theorem volumeFitsItsRegister : Obligations.VolumeFitsItsRegister := fun c lv inv l =>
  ⟨estimateVolume_plain_nonneg lv l _, (estimateVolume_mem_Icc c lv false l).2, (estimateVolume_mem_Icc c lv inv l).1,
    (estimateVolume_mem_Icc c lv inv l).2, toInt_ofInt_estimateVolume c lv inv l⟩

/-! ### Monotony -/

/-- The search stops no earlier for a higher level. -/
theorem searchPoint_mono {pts : List CalPoint} {l l' : Nat} (h : l ≤ l') : searchPoint pts l ≤ searchPoint pts l' := by
  by_contra hgt
  have hhigh := lt_level_searchPoint (pts := pts) (l := l') (by have := searchPoint_le_length pts l; omega)
  have hlow : (pointAt pts (searchPoint pts l')).level ≤ l := level_le_of_lt_searchPoint (by omega)
  omega

theorem pointAt_vol_mono {pts : List CalPoint} (h : (pts.map CalPoint.vol).Pairwise (· ≤ ·)) {i j : Nat} (hij : i ≤ j)
    (hj : j < pts.length) : (pointAt pts i).vol ≤ (pointAt pts j).vol := by
  rcases hij.eq_or_lt with rfl | hlt
  · exact le_rfl
  · rw [pointAt, pointAt, List.getD_eq_getElem _ _ (by omega), List.getD_eq_getElem _ _ hj]
    exact List.pairwise_iff_getElem.mp (List.pairwise_map.mp h) i j (by omega) hj hlt

/-- Between two entries with non-decreasing volumes the interpolation is non-decreasing. -/
theorem interpolate_mono {low high : CalPoint} (hlevel : low.level < high.level) (hvol : low.vol ≤ high.vol)
    {l l' : Nat} (h : l ≤ l') : interpolate low high l ≤ interpolate low high l' := by
  refine Int.add_le_add_left (Int.ediv_le_ediv (by omega) (Int.mul_le_mul_of_nonneg_right (by omega) (by omega))) _

/-- The volume is at most that of the entry at which the search stops. -/
theorem plainVolume_le_stop {pts : List CalPoint} (h : (pts.map CalPoint.vol).Pairwise (· ≤ ·)) {l : Nat}
    (hlt : searchPoint pts l < pts.length) : plainVolume pts l ≤ (pointAt pts (searchPoint pts l)).vol := by
  rcases Nat.eq_zero_or_pos (searchPoint pts l) with h0 | hpos
  · simp [plainVolume, h0]
  · rw [plainVolume_between hpos hlt]
    have hvol := pointAt_vol_mono h (Nat.sub_le _ 1) hlt
    exact (interpolate_mem_Icc (level_le_of_lt_searchPoint (by omega)) (lt_level_searchPoint hlt)
      ⟨le_rfl, hvol⟩ ⟨hvol, le_rfl⟩).2

/-- The volume is at least that of the entry before the one at which the search stops. -/
theorem le_plainVolume_of_pos {pts : List CalPoint} (h : (pts.map CalPoint.vol).Pairwise (· ≤ ·)) {l : Nat}
    (hpos : 1 ≤ searchPoint pts l) : ((pointAt pts (searchPoint pts l - 1)).vol : Int) ≤ plainVolume pts l := by
  rcases (searchPoint_le_length pts l).eq_or_lt with hend | hlt
  · rw [plainVolume, if_neg (by omega), if_pos hend, hend]
  · rw [plainVolume_between hpos hlt]
    have hvol := pointAt_vol_mono h (Nat.sub_le (searchPoint pts l) 1) hlt
    exact (interpolate_mem_Icc (level_le_of_lt_searchPoint (by omega)) (lt_level_searchPoint hlt)
      ⟨le_rfl, hvol⟩ ⟨hvol, le_rfl⟩).1

/-- A higher level stops the search at the same entry, or at a later one, whose predecessor separates the volumes. -/
theorem plainVolume_mono {pts : List CalPoint} (h : (pts.map CalPoint.vol).Pairwise (· ≤ ·)) {l l' : Nat}
    (hl : l ≤ l') : plainVolume pts l ≤ plainVolume pts l' := by
  rcases (searchPoint_mono (pts := pts) hl).eq_or_lt with hsame | hlater
  · by_cases hpos : 1 ≤ searchPoint pts l
    · by_cases hlt : searchPoint pts l < pts.length
      · have hgap := (level_le_of_lt_searchPoint (Nat.sub_one_lt_of_lt hpos)).trans_lt (lt_level_searchPoint hlt)
        rw [plainVolume_between hpos hlt, plainVolume_between (hsame ▸ hpos) (hsame ▸ hlt), ← hsame]
        exact interpolate_mono hgap (pointAt_vol_mono h (Nat.sub_le _ 1) hlt) hl
      · have hend : searchPoint pts l = pts.length := by have := searchPoint_le_length pts l; omega
        simp [plainVolume, ← hsame, hend]
    · have h0 : searchPoint pts l = 0 := by omega
      simp [plainVolume, ← hsame, h0]
  · have hend := searchPoint_le_length pts l'
    calc
      plainVolume pts l ≤ (pointAt pts (searchPoint pts l)).vol := plainVolume_le_stop h (by omega)
      _ ≤ (pointAt pts (searchPoint pts l' - 1)).vol := by
        exact_mod_cast pointAt_vol_mono h (by omega) (by omega)
      _ ≤ plainVolume pts l' := le_plainVolume_of_pos h (by omega)

/-- Settles O57. -/
theorem volumeIsNondecreasingOnSortedTables : Obligations.VolumeIsNondecreasingOnSortedTables := by
  intro pts l l' _ hvol hl
  by_cases hne : pts = []
  · rw [hne, estimateVolume_nil, estimateVolume_nil]
  · rw [estimateVolume_plain hne, estimateVolume_plain hne]
    exact plainVolume_mono hvol hl

end Sys2Proof.Machine
end

section
/-! What the pin shows of an attempt, tick by tick (spec/30_encoding.md R77, R83): observations of runs put together, and the
level of `tx` in each tick read off the phase. -/

namespace Sys2Proof.Machine

/-! ### Observations -/

/-- A run is observed up to a state on its way and from there. -/
theorem observe_add {m : Nat} {s t : State} (h : run m s = .next t) (n : Nat) :
    observe (m + n) s = observe m s ++ observe n t := by
  induction m generalizing s with
  | zero =>
    obtain rfl : s = t := by simpa using h
    rw [Nat.zero_add, observe, List.nil_append]
  | succ m ih =>
    cases hs : step s with
    | next u =>
      rw [run_succ_of_step hs] at h
      simp only [Nat.add_right_comm m 1 n, observe, hs, List.cons_append, ih h]
    | fault r => simp [run, hs] at h
    | refused r => simp [run, hs] at h

theorem observe_one (s : State) : observe 1 s = [outputs s] := by
  rw [observe]
  split <;> rfl

/-- A pin that is at `b` in each of `n` ticks. -/
theorem observe_tx_of_constant {n : Nat} {s : State} {b : Bool} (h : ∀ k < n, ∃ u, run k s = .next u ∧ u.tx = b) :
    (observe n s).map Outputs.tx = List.replicate n b := by
  induction n with
  | zero => rfl
  | succ n ih =>
    obtain ⟨u, hu, hb⟩ := h n n.lt_succ_self
    rw [observe_add hu, List.map_append, ih fun k hk => h k (by omega), observe_one, List.replicate_succ', ← hb]
    rfl

theorem run_keeps_phaseInv {n : Nat} {s t : State} (h : PhaseInv s) (hrun : run n s = .next t) : PhaseInv t := by
  induction n generalizing s with
  | zero =>
    obtain rfl : s = t := by simpa using hrun
    exact h
  | succ n ih =>
    cases hs : step s with
    | next u =>
      rw [run_succ_of_step hs] at hrun
      exact ih (step_keeps_phaseInv h hs) hrun
    | fault r => simp [run, hs] at hrun
    | refused r => simp [run, hs] at hrun

/-- In a phase of `n` ticks that counts whatever `rx` is and shows `b`, the pin is at `b` in every tick. -/
theorem observe_tx_of_phase {p : Phase} {n : Nat} {s : State} {b : Bool} (hinv : PhaseInv s) (h : Ready p n s)
    (hp : ∀ rx, countsOn p rx = true) (hc : s.seq.cnt = 0#16) (hlimit : phaseLimit s = n - 1)
    (hb : ∀ {u : State}, u.seq.phase = p → PhaseInv u → u.tx = b) :
    (observe n s).map Outputs.tx = List.replicate n b := by
  refine observe_tx_of_constant fun k hk => ?_
  have hcnt : s.seq.cnt.toNat = 0 := by rw [hc]; rfl
  obtain ⟨u, hrun, hseq, -⟩ := counting_run (h.mono hk.le) (busy_of_countsOn (hp true)) (fun j _ => hp _) (by omega)
  exact ⟨u, hrun.ends, hb (by rw [hseq, h.phase]) (run_keeps_phaseInv hinv hrun.ends)⟩

/-! ### The transmit frame -/

/-- The pin during the address pulses: each a low and a high part. -/
def addressFrame (p : Params) (j : Nat) : List Bool :=
  (List.replicate j (List.replicate p.tAddrLow false ++ List.replicate p.tAddrHigh true)).flatten

theorem addressFrame_succ (p : Params) (j : Nat) :
    addressFrame p (j + 1) =
      List.replicate p.tAddrLow false ++ (List.replicate p.tAddrHigh true ++ addressFrame p j) := by
  rw [addressFrame, List.replicate_succ, List.flatten_cons, List.append_assoc, addressFrame]

/-- The address pulses still to be sent, as the pin shows them. -/
theorem addressPulses_sent {P : Params} {j : Nat} {s : State} (hP : s.params = P) (hinv : PhaseInv s)
    (hj : PulsesLeft j s) (h : Ready s.seq.phase (j * (P.tAddrLow + P.tAddrHigh)) s) :
    (observe (j * (P.tAddrLow + P.tAddrHigh)) s).map Outputs.tx = addressFrame P j := by
  induction j generalizing s with
  | zero => simp [observe, addressFrame]
  | succ j ih =>
    obtain ⟨hphase, hcnt, hpulse⟩ := hj
    have hticks : (j + 1) * (P.tAddrLow + P.tAddrHigh) =
        P.tAddrLow + (P.tAddrHigh + j * (P.tAddrLow + P.tAddrHigh)) := by ring
    rw [hphase, hticks] at h
    rw [hticks]
    have hready := h.mono (Nat.le_add_right _ _)
    obtain ⟨u, hlow, hu⟩ := addrLow_run hP hready hcnt
    have hPu := hlow.same.params.trans hP
    have hinvu := run_keeps_phaseInv hinv hlow.ends
    have hreadyu : Ready .addrHigh _ u := h.after hlow (by rw [hu])
    have hcntu : u.seq.cnt = 0#16 := by rw [hu]
    obtain ⟨v, hhigh, hv⟩ := addrHigh_run hPu (hreadyu.mono (Nat.le_add_right _ _)) hcntu
      ((congrArg (·.pulse.toNat) hu).trans hpulse)
    have sentLow := observe_tx_of_phase (b := false) hinv hready (fun _ => rfl) hcnt
      (by rw [phaseLimit_addrLow hphase, hP]) fun hp hi => ((phaseInv_addrLow hp).mp hi).1
    have sentHigh := observe_tx_of_phase (b := true) hinvu (hreadyu.mono (Nat.le_add_right _ _)) (fun _ => rfl) hcntu
      (by rw [phaseLimit_addrHigh hreadyu.phase, hPu]) fun hp hi => ((phaseInv_addrHigh hp).mp hi).1
    rw [observe_add hlow.ends, observe_add hhigh.ends, List.map_append, List.map_append, sentLow, sentHigh,
      ih (hhigh.same.params.trans hPu) (run_keeps_phaseInv hinvu hhigh.ends) hv (hreadyu.after hhigh rfl),
      addressFrame_succ]

/-- The whole frame from the precheck on, as the pin shows it. -/
theorem frame_sent {s : State} (hinv : PhaseInv s)
    (h : Ready .precheck (1 + (s.params.tCharge + addressTicks s)) s)
    (hpre : rxAt s 0 = true) (hcharge : rxAt s s.params.tCharge = true) :
    (observe (1 + (s.params.tCharge + addressTicks s)) s).map Outputs.tx =
      [false] ++ (List.replicate s.params.tCharge true ++ addressFrame s.params s.cfg.addr.toNat) := by
  obtain ⟨u, hrun, hphase, hcnt⟩ := precheck_run (h.mono (Nat.le_add_right _ _)) hpre
  have hu := h.after hrun hphase
  have huCharge := hu.mono (Nat.le_add_right _ _)
  have hinvu := run_keeps_phaseInv hinv hrun.ends
  have hlast : rxAt u (s.params.tCharge - 1) = true := by
    rwa [rxAt_of_run hrun.ends, Nat.add_sub_cancel' (CountableTimings.of_legal h.legal).charge_pos]
  obtain ⟨v, hrun', hleft⟩ := charge_run hrun.same.params huCharge hcnt hlast
  have sentCharge := observe_tx_of_phase (b := true) hinvu huCharge (fun _ => rfl) hcnt
    (by rw [phaseLimit_charge hphase, hrun.same.params]) fun hp hi => ((phaseInv_charge hp).mp hi).1
  rw [hrun.same.cfg] at hleft
  have sentAddress := addressPulses_sent (hrun.same.trans hrun'.same).params (run_keeps_phaseInv hinvu hrun'.ends) hleft
    (hu.after hrun' rfl)
  have htx : (outputs s).tx = false := ((phaseInv_precheck h.phase).mp hinv).1
  rw [observe_add hrun.ends, observe_add hrun'.ends, List.map_append, List.map_append, observe_one, sentCharge]
  rw [addressTicks, sentAddress, List.map_singleton, htx]

/-! ### The acceptance and the frame -/

theorem run_accepts {s : State} (h : StartsAttempt s) : run 1 s = .next (advance (startAttempt s)) :=
  run_succ_of_step (step_of_startsAttempt h) 0

theorem stepsToListening_eq (s : State) : stepsToListening s = 1 + (1 + (s.params.tCharge + addressTicks s)) := by
  rw [stepsToListening]
  omega

/-- After the acceptance edge the block stands before the precheck, with the edges from the second on to come. -/
theorem ready_of_startsAttempt {s : State} (h : StartsAttempt s) {n : Nat} (hr : ResetFree s (1 + n)) :
    Ready .precheck n (advance (startAttempt s)) :=
  ⟨h.1, rfl, hr.after_run (run_accepts h)⟩

/-- From the acceptance of a READ whose line passes both checks to the start of listening. -/
theorem listening_run {s : State} (h : StartsAttempt s) (hline : LinePassesChecks s) {n : Nat}
    (hr : ResetFree s (stepsToListening s + n)) :
    ∃ t, AttemptRun (1 + (s.params.tCharge + addressTicks s)) (advance (startAttempt s)) t
      ∧ run (stepsToListening s) s = .next t ∧ Listening t ∧ Ready .waitHigh n t := by
  obtain ⟨hpre, hcharge⟩ := hline
  have hrx := rxAt_of_run (run_accepts h)
  rw [stepsToListening_eq, Nat.add_assoc 1] at hr
  have hready := ready_of_startsAttempt h hr
  obtain ⟨t, hrun, ht⟩ := frame_run (s := advance (startAttempt s)) (hready.mono (Nat.le_add_right _ _))
    ((hrx 0).trans hpre) ((hrx _).trans hcharge)
  refine ⟨t, hrun, ?_, ht, hready.after hrun ht.phase⟩
  rw [stepsToListening_eq, run_add (run_accepts h)]
  exact hrun.ends

/-- Settles O28: the acceptance tick, and the frame as the pin shows it. -/
theorem transmitFrameIsSent : Obligations.TransmitFrameIsSent := by
  intro s h htx hr hline
  obtain ⟨t, hrun, hends, ht, -⟩ := listening_run (n := 0) h hline hr
  have hinv : PhaseInv (advance (startAttempt s)) := ⟨htx, rfl⟩
  have hrx := rxAt_of_run (run_accepts h)
  refine ⟨?_, t, hends, ?_, ht.phase, ht.cnt, ht.first, ht.byten, ht.bitn, hrun.same.op, hrun.same.done, hrun.same.res,
    hrun.same.cfg⟩
  · have sent := frame_sent hinv (ready_of_startsAttempt h (stepsToListening_eq s ▸ hr)) ((hrx 0).trans hline.1)
      ((hrx _).trans hline.2)
    have hfirst : (outputs s).tx = false := htx
    rw [stepsToListening_eq, observe_add (run_accepts h), List.map_append, observe_one, List.map_singleton, hfirst]
    exact (congrArg ([false] ++ ·) sent).trans (by simp [addressFrame])
  · rw [((phaseInv_waitHigh ht.phase).mp (run_keeps_phaseInv hinv hrun.ends)).1, hrun.same.params]
    rfl

end Sys2Proof.Machine
end

section
/-! How attempts end: with a packet received (spec/40_wire_decoder.md R110 to R115), without a response (spec/60_exceptions.md
R203), and with an interface fault (R201). -/

namespace Sys2Proof.Machine

/-- Settles O29, from the run of a train of pulses. -/
theorem packetOfPulsesIsReceived : Obligations.PacketOfPulsesIsReceived := by
  intro s ps pkt hl hphase hop hcnt hfirst hbyten hbitn hps hpkt hr hrx
  have hhears : Hears s (pulseSamples ps) := fun k hk => by
    have hsample := hrx k hk
    rw [List.getElem?_eq_getElem hk] at hsample
    exact Option.some.inj hsample
  obtain ⟨t, hrun, htphase, htcnt, htpkt, httx⟩ :=
    Listening.packet_run ⟨hphase, hcnt, hfirst, hbyten, hbitn⟩ ⟨hl, hphase, hr⟩ hps hpkt hhears
  exact ⟨t, hrun.ends, htpkt, htphase, htcnt, hrun.same.op.trans hop, httx, hrun.same.res, hrun.same.cfg,
    hrun.same.done, hrun.same.params⟩

/-- A line that stays low in the first wait ends it at its deadline. -/
theorem Listening.silent_run {s : State} (hs : Listening s) (h : Ready .waitHigh (s.params.tFirst + 1) s)
    (hrx : ∀ k ≤ s.params.tFirst, rxAt s k = false) :
    ∃ t, AttemptRun s.params.tFirst s t ∧ step t = .next (errorExit .noResponse (edgeBase t)) := by
  have hcnt : s.seq.cnt.toNat = 0 := by rw [hs.cnt]; rfl
  obtain ⟨t, hrun, hseq, htcnt⟩ := counting_run (h.mono (Nat.le_add_right _ 1)) (by decide)
    (fun k hk => by rw [hrx k hk.le]; rfl)
    (by rw [phaseLimit_waitHigh h.phase, waitLimit_of_first hs.first]; omega)
  have hready : Ready .waitHigh 1 t := h.after hrun (by rw [hseq, h.phase])
  have hfirst : t.seq.first = true := by rw [hseq, hs.first]
  have hlimit : t.seq.cnt.toNat = waitLimit t := by
    rw [waitLimit_of_first hfirst, htcnt, hcnt, hrun.same.params, Nat.zero_add]
  have hlow : rxAt t 0 = false := by
    rw [rxAt_of_run hrun.ends]
    exact hrx _ le_rfl
  refine ⟨t, hrun, ?_⟩
  rw [step_in_waitHigh (hready.workingIn one_pos), hlow,
    waitHighPhase_noResponse (s := edgeBase t) hlimit hfirst]

/-- Settles O31: the frame, the first wait, and the edge of its deadline. -/
theorem silentLineEndsNoResponse : Obligations.SilentLineEndsNoResponse := by
  intro s h hline hr hrx
  rw [Nat.add_assoc] at hr
  obtain ⟨t, hframe, hends, ht, hready⟩ := listening_run h hline hr
  have hparams : t.params = s.params := hframe.same.params
  obtain ⟨u, hwait, hstep⟩ := ht.silent_run (by rwa [hparams]) fun k hk => by
    rw [rxAt_of_run hends]
    exact hrx k (hparams ▸ hk)
  have hattempt := hframe.trans hwait
  rw [hparams] at hwait hattempt
  refine ⟨fun k hk hk1 => ?_, errorExit .noResponse (edgeBase u), ?_, rfl, rfl, rfl, rfl, rfl, rfl, rfl, rfl, rfl⟩
  · obtain ⟨j, rfl⟩ := Nat.exists_eq_add_of_le hk1
    obtain ⟨v, hv, hsame⟩ := hattempt.during j (by rw [stepsToListening_eq] at hk; omega)
    exact ⟨v, (run_add (run_accepts h) j).trans hv, hsame.busy⟩
  · rw [Nat.add_assoc, run_add hends, run_add hwait.ends]
    exact run_succ_of_step hstep 0

/-- Settles O33: the precheck edge raises InterfaceFault, and the pin is 0 before it, at it and after it. -/
theorem lowIdleLineEndsInterfaceFault : Obligations.LowIdleLineEndsInterfaceFault := by
  intro s h htx hr hrx
  have haccept := run_accepts h
  have hready := ready_of_startsAttempt (n := 1) h hr
  have hlow : rxAt (advance (startAttempt s)) 0 = false := (rxAt_of_run haccept 0).trans hrx
  have hstep := step_in_precheck (hready.workingIn one_pos)
  rw [hlow, precheckPhase_low] at hstep
  have hends : run 2 s = .next (errorExit .interfaceFault (edgeBase (advance (startAttempt s)))) :=
    (run_add haccept 1).trans (run_succ_of_step hstep 0)
  refine ⟨observe_tx_of_constant (n := 3) fun k hk => ?_, _, hends, rfl, rfl, rfl, rfl, rfl, rfl, rfl, rfl, rfl⟩
  match k with
  | 0 => exact ⟨s, rfl, htx⟩
  | 1 => exact ⟨_, haccept, htx⟩
  | 2 => exact ⟨_, hends, rfl⟩

end Sys2Proof.Machine
end

section
/-! The bound on a READ (spec/70_reset_and_hazards.md R248): a number of edges that an attempt has left at most, which every
edge of the attempt lowers. -/

namespace Sys2Proof.Machine

/-! ### The edges left -/

/-- The most edges of one more bit: a wait and a pulse. -/
def bitEdges (p : Params) : Nat := (p.tBit + 1) + p.tBit

/-- The most edges of listening and CALC. -/
def listenEdges (p : Params) : Nat := (p.tFirst + 1) + p.tBit + 95 * bitEdges p + p.tCalc

/-- The most edges after the pulse that is waited for or measured: those of the bits to come, and CALC. -/
def edgesAfterPulse (s : State) : Nat := (95 - bitsReceived s.seq) * bitEdges s.params + s.params.tCalc

/-- The edges from the end of the present address pulse to the start of listening. -/
def edgesAfterAddressPulse (s : State) : Nat := (s.seq.pulse.toNat - 1) * (s.params.tAddrLow + s.params.tAddrHigh)

/-- The most edges an attempt has left after its present phase. -/
def edgesAfterPhase (s : State) : Nat :=
  match s.seq.phase with
  | .idle => 0
  | .precheck => s.params.tCharge + addressTicks s + listenEdges s.params
  | .charge => addressTicks s + listenEdges s.params
  | .addrLow => s.params.tAddrHigh + edgesAfterAddressPulse s + listenEdges s.params
  | .addrHigh => edgesAfterAddressPulse s + listenEdges s.params
  | .waitHigh => s.params.tBit + edgesAfterPulse s
  | .measHigh => edgesAfterPulse s
  | .calc => 0

/-- The most edges an attempt has left. -/
def edgesLeft (s : State) : Nat :=
  match s.seq.phase with
  | .idle => 0
  | .precheck => 1 + edgesAfterPhase s
  | _ => (phaseLimit s + 1 - s.seq.cnt.toNat) + edgesAfterPhase s

theorem edgesLeft_idle {s : State} (h : s.seq.phase = .idle) : edgesLeft s = 0 := by
  rw [edgesLeft, h]

theorem edgesLeft_precheck {s : State} (h : s.seq.phase = .precheck) : edgesLeft s = 1 + edgesAfterPhase s := by
  rw [edgesLeft, h]

theorem edgesLeft_counting {s : State} (h : s.seq.phase ≠ .idle) (h' : s.seq.phase ≠ .precheck) :
    edgesLeft s = (phaseLimit s + 1 - s.seq.cnt.toNat) + edgesAfterPhase s := by
  unfold edgesLeft
  split
  · exact absurd ‹_› h
  · exact absurd ‹_› h'
  · rfl

theorem edgesAfterPhase_precheck {s : State} (h : s.seq.phase = .precheck) :
    edgesAfterPhase s = s.params.tCharge + addressTicks s + listenEdges s.params := by
  rw [edgesAfterPhase, h]

theorem edgesAfterPhase_charge {s : State} (h : s.seq.phase = .charge) :
    edgesAfterPhase s = addressTicks s + listenEdges s.params := by
  rw [edgesAfterPhase, h]

theorem edgesAfterPhase_addrLow {s : State} (h : s.seq.phase = .addrLow) :
    edgesAfterPhase s = s.params.tAddrHigh + edgesAfterAddressPulse s + listenEdges s.params := by
  rw [edgesAfterPhase, h]

theorem edgesAfterPhase_addrHigh {s : State} (h : s.seq.phase = .addrHigh) :
    edgesAfterPhase s = edgesAfterAddressPulse s + listenEdges s.params := by
  rw [edgesAfterPhase, h]

theorem edgesAfterPhase_waitHigh {s : State} (h : s.seq.phase = .waitHigh) :
    edgesAfterPhase s = s.params.tBit + edgesAfterPulse s := by
  rw [edgesAfterPhase, h]

theorem edgesAfterPhase_measHigh {s : State} (h : s.seq.phase = .measHigh) : edgesAfterPhase s = edgesAfterPulse s := by
  rw [edgesAfterPhase, h]

/-- The ticks of `n` address pulses are those of one and of the rest. -/
theorem address_edges (t : Nat) {n : Nat} (h : 1 ≤ n) : n * t = t + (n - 1) * t := by
  obtain ⟨m, rfl⟩ := Nat.exists_eq_add_of_le' h
  rw [Nat.add_sub_cancel]
  ring

/-! ### An attempt under way -/

/-- A READ is in flight: after the precheck the invariant holds, and a pulse is measured only after the first wait. -/
structure Underway (s : State) : Prop where
  legal : s.params.legal = true
  op : s.seq.op = .read
  inv : s.seq.phase ≠ .precheck → PhaseInv s
  first : s.seq.phase = .measHigh → s.seq.first = false

/-- A counting phase is within its limit. -/
theorem Underway.cnt_le {s : State} (h : Underway s) (hp : s.seq.phase ≠ .idle) (hp' : s.seq.phase ≠ .precheck) :
    s.seq.cnt.toNat ≤ phaseLimit s := by
  have hinv := h.inv hp'
  unfold PhaseInv at hinv
  unfold phaseLimit
  cases hq : s.seq.phase with
  | idle => exact absurd hq hp
  | precheck => exact absurd hq hp'
  | charge | addrLow | addrHigh | waitHigh | measHigh =>
    simp only [hq] at hinv ⊢
    omega
  | _ =>
    simp only [hq] at hinv ⊢
    omega

/-- Each phase has at least one edge left. -/
theorem Underway.after_lt {s : State} (h : Underway s) (hp : s.seq.phase ≠ .idle) : edgesAfterPhase s < edgesLeft s := by
  by_cases hp' : s.seq.phase = .precheck
  · rw [edgesLeft_precheck hp']
    omega
  · have hcnt := h.cnt_le hp hp'
    rw [edgesLeft_counting hp hp']
    omega

/-! ### Every edge lowers the edges left -/

/-- From `s` to `t` the edges left get fewer; and a pulse is measured only after the first wait. -/
structure Progresses (s t : State) : Prop where
  less : edgesLeft t < edgesLeft s
  first : t.seq.phase = .measHigh → t.seq.first = false

theorem Underway.errorExit_progresses {s : State} (h : Underway s) (hp : s.seq.phase ≠ .idle) (e : ErrorKind) :
    Progresses s (errorExit e s) := by
  have := h.after_lt hp
  exact ⟨by rw [edgesLeft_idle rfl]; omega, by simp⟩

/-- A tick below the limit of the phase. -/
theorem Underway.countTick_progresses {s : State} (h : Underway s) (hp : s.seq.phase ≠ .idle)
    (hp' : s.seq.phase ≠ .precheck) (hc : s.seq.cnt.toNat ≠ phaseLimit s) : Progresses s (countTick s) := by
  have hcnt := h.cnt_le hp hp'
  have hlimit := phaseLimit_le h.legal
  have hnext : (s.seq.cnt + 1#16).toNat = s.seq.cnt.toNat + 1 := by bv_omega
  have hsame : phaseLimit (countTick s) = phaseLimit s := rfl
  have hafter : edgesAfterPhase (countTick s) = edgesAfterPhase s := rfl
  refine ⟨?_, h.first⟩
  rw [edgesLeft_counting (s := countTick s) hp hp', edgesLeft_counting hp hp', hsame, hafter, countTick_cnt, hnext]
  omega

/-- A phase that begins with count 0 has all its edges left. -/
theorem edgesLeft_of_start {s : State} (hp : s.seq.phase ≠ .idle) (hp' : s.seq.phase ≠ .precheck)
    (hc : s.seq.cnt = 0#16) : edgesLeft s = phaseLimit s + 1 + edgesAfterPhase s := by
  rw [edgesLeft_counting hp hp', hc]
  rfl

theorem edgesLeft_startListening (s : State) : edgesLeft (startListening s) = listenEdges s.params := by
  have hafter : edgesAfterPhase (startListening s) = s.params.tBit + (95 * bitEdges s.params + s.params.tCalc) := rfl
  have hlimit : phaseLimit (startListening s) = s.params.tFirst := rfl
  rw [edgesLeft_of_start (by simp) (by simp) rfl, hafter, hlimit, listenEdges]
  omega

theorem Underway.precheckPhase_progresses {s : State} (h : Underway s) (hp : s.seq.phase = .precheck) (rx : Bool) :
    Progresses s (precheckPhase rx s) := by
  have hbusy : s.seq.phase ≠ .idle := by simp [hp]
  cases rx with
  | false => exact h.errorExit_progresses hbusy .interfaceFault
  | true =>
    have hpos := (CountableTimings.of_legal h.legal).charge_pos
    have hlimit : phaseLimit (enterPhase .charge true 0#16 s) = s.params.tCharge - 1 := rfl
    have hafter : edgesAfterPhase (enterPhase .charge true 0#16 s) = addressTicks s + listenEdges s.params := rfl
    refine ⟨?_, by simp⟩
    rw [precheckPhase_high, edgesLeft_of_start (by simp) (by simp) rfl, edgesLeft_precheck hp, hlimit, hafter,
      edgesAfterPhase_precheck hp]
    omega

/-- An address pulse that begins, with those after it. -/
theorem edgesLeft_addrLow_start {s : State} (hl : s.params.legal = true) (hp : s.seq.phase = .addrLow)
    (hc : s.seq.cnt = 0#16) (hpulse : 1 ≤ s.seq.pulse.toNat) :
    edgesLeft s = s.seq.pulse.toNat * (s.params.tAddrLow + s.params.tAddrHigh) + listenEdges s.params := by
  have hpos := (CountableTimings.of_legal hl).addrLow_pos
  rw [edgesLeft_of_start (by simp [hp]) (by simp [hp]) hc, phaseLimit_addrLow hp, edgesAfterPhase_addrLow hp,
    edgesAfterAddressPulse, address_edges _ hpulse]
  omega

theorem Underway.chargePhase_progresses {s : State} (h : Underway s) (hp : s.seq.phase = .charge) (rx : Bool) :
    Progresses s (chargePhase rx s) := by
  have hbusy : s.seq.phase ≠ .idle := by simp [hp]
  have hafter := h.after_lt hbusy
  rw [edgesAfterPhase_charge hp] at hafter
  unfold chargePhase
  split_ifs with hlast hrx ha
  · exact h.errorExit_progresses hbusy _
  · exact ⟨by rw [edgesLeft_startListening]; omega, by simp⟩
  · have hpos : s.cfg.addr.toNat ≠ 0 := fun h0 => ha (BitVec.eq_of_toNat_eq h0)
    refine ⟨?_, by simp⟩
    rw [edgesLeft_addrLow_start (s := enterPhase .addrLow false 0#16 { s with seq.pulse := s.cfg.addr }) h.legal rfl rfl
      (Nat.one_le_iff_ne_zero.mpr hpos)]
    exact hafter
  · exact h.countTick_progresses hbusy (by simp [hp]) (by rwa [phaseLimit_charge hp])

theorem Underway.addrLowPhase_progresses {s : State} (h : Underway s) (hp : s.seq.phase = .addrLow) :
    Progresses s (addrLowPhase s) := by
  have hbusy : s.seq.phase ≠ .idle := by simp [hp]
  have hafter := h.after_lt hbusy
  rw [edgesAfterPhase_addrLow hp] at hafter
  unfold addrLowPhase
  split_ifs with hlast
  · have hpos := (CountableTimings.of_legal h.legal).addrHigh_pos
    have hlimit : phaseLimit (enterPhase .addrHigh true 0#16 s) = s.params.tAddrHigh - 1 := rfl
    have hnext : edgesAfterPhase (enterPhase .addrHigh true 0#16 s) = edgesAfterAddressPulse s + listenEdges s.params :=
      rfl
    refine ⟨?_, by simp⟩
    rw [edgesLeft_of_start (by simp) (by simp) rfl, hlimit, hnext]
    omega
  · exact h.countTick_progresses hbusy (by simp [hp]) (by rwa [phaseLimit_addrLow hp])

theorem Underway.addrHighPhase_progresses {s : State} (h : Underway s) (hp : s.seq.phase = .addrHigh) :
    Progresses s (addrHighPhase s) := by
  have hbusy : s.seq.phase ≠ .idle := by simp [hp]
  have hafter := h.after_lt hbusy
  rw [edgesAfterPhase_addrHigh hp] at hafter
  obtain ⟨-, -, -, hpulse, -⟩ := (phaseInv_addrHigh hp).mp (h.inv (by simp [hp]))
  unfold addrHighPhase
  split_ifs with hlast hone
  · exact ⟨by rw [edgesLeft_startListening]; change listenEdges s.params < _; omega, by simp⟩
  · have htwo : s.seq.pulse.toNat ≠ 1 := fun h1 => hone (BitVec.eq_of_toNat_eq h1)
    have hless : (s.seq.pulse - 1#4).toNat = s.seq.pulse.toNat - 1 := by bv_omega
    refine ⟨?_, by simp⟩
    rw [edgesLeft_addrLow_start (s := enterPhase .addrLow false 0#16 { s with seq.pulse := s.seq.pulse - 1#4 }) h.legal
      rfl rfl (by change 1 ≤ (s.seq.pulse - 1#4).toNat; omega)]
    change (s.seq.pulse - 1#4).toNat * _ + _ < _
    rw [hless]
    exact hafter
  · exact h.countTick_progresses hbusy (by simp [hp]) (by rwa [phaseLimit_addrHigh hp])

theorem Underway.waitHighPhase_progresses {s : State} (h : Underway s) (hp : s.seq.phase = .waitHigh) (rx : Bool) :
    Progresses s (waitHighPhase rx s) := by
  have hbusy : s.seq.phase ≠ .idle := by simp [hp]
  have hafter := h.after_lt hbusy
  rw [edgesAfterPhase_waitHigh hp] at hafter
  unfold waitHighPhase
  split_ifs with hrx hlast hfirst
  · refine ⟨?_, fun _ => rfl⟩
    rw [edgesLeft_counting (by simp) (by simp)]
    change s.params.tBit + 1 - 1 + edgesAfterPulse s < _
    omega
  · exact h.errorExit_progresses hbusy _
  · exact h.errorExit_progresses hbusy _
  · exact h.countTick_progresses hbusy (by simp [hp]) (by rwa [phaseLimit_waitHigh hp])

/-- A wait that begins after the first pulse has the edges of one more bit left, and those after it. -/
theorem edgesLeft_next_wait {s : State} (hp : s.seq.phase = .waitHigh) (hc : s.seq.cnt = 0#16)
    (hf : s.seq.first = false) : edgesLeft s = bitEdges s.params + edgesAfterPulse s := by
  rw [edgesLeft_of_start (by simp [hp]) (by simp [hp]) hc, phaseLimit_waitHigh hp, waitLimit_of_not_first hf,
    edgesAfterPhase_waitHigh hp, bitEdges]
  omega

/-- One bit more received, one bit fewer to come. -/
theorem edgesAfterPulse_of_bit {s t : State} (hb : bitsReceived t.seq = bitsReceived s.seq + 1)
    (hlt : bitsReceived s.seq < 95) (hP : t.params = s.params) :
    bitEdges t.params + edgesAfterPulse t = edgesAfterPulse s := by
  obtain ⟨m, hm⟩ := Nat.exists_eq_add_of_lt hlt
  rw [edgesAfterPulse, edgesAfterPulse, hb, hP, show 95 - bitsReceived s.seq = m + 1 by omega,
    show 95 - (bitsReceived s.seq + 1) = m by omega]
  ring

/-- The end of a pulse uses up the edges of its bit. -/
theorem Underway.shiftBit_progresses {s : State} (h : Underway s) (hp : s.seq.phase = .measHigh) (b : Bool) :
    Progresses s (shiftBit b s) := by
  have hafter := h.after_lt (by simp [hp])
  have hfirst := h.first hp
  rw [edgesAfterPhase_measHigh hp] at hafter
  have next {t : State} (htp : t.seq.phase = .waitHigh) (hc : t.seq.cnt = 0#16) (hf : t.seq.first = false)
      (hP : t.params = s.params) (hb : bitsReceived t.seq = bitsReceived s.seq + 1)
      (hlt : bitsReceived s.seq < 95) : Progresses s t := by
    refine ⟨?_, fun _ => hf⟩
    rw [edgesLeft_next_wait htp hc hf, edgesAfterPulse_of_bit hb hlt hP]
    exact hafter
  by_cases hb : s.seq.bitn = 7#3
  · have h7 : s.seq.bitn.toNat = 7 := by rw [hb]; rfl
    by_cases hy : s.seq.byten = 11
    · have hpos := (CountableTimings.of_legal h.legal).calc_pos
      rw [shiftBit_ends_packet b hb hy]
      refine ⟨?_, by simp⟩
      rw [edgesLeft_of_start (by simp) (by simp) rfl]
      change s.params.tCalc - 1 + 1 + 0 < _
      rw [edgesAfterPulse] at hafter
      omega
    · have hlt : s.seq.byten.val ≠ 11 := fun h11 => hy (Fin.ext h11)
      have hnext : (s.seq.byten + 1).val = s.seq.byten.val + 1 := by
        rw [Fin.val_add, Fin.val_one]; omega
      rw [shiftBit_ends_byte b hb hy]
      refine next rfl rfl hfirst rfl ?_ (by rw [bitsReceived]; omega)
      change 8 * (s.seq.byten + 1).val + 0 = 8 * s.seq.byten.val + s.seq.bitn.toNat + 1
      omega
  · have hnext : (s.seq.bitn + 1#3).toNat = s.seq.bitn.toNat + 1 := by bv_omega
    rw [shiftBit_within_byte b hb]
    refine next rfl rfl hfirst rfl ?_ (by rw [bitsReceived]; bv_omega)
    change 8 * s.seq.byten.val + (s.seq.bitn + 1#3).toNat = 8 * s.seq.byten.val + s.seq.bitn.toNat + 1
    omega

theorem Underway.measHighPhase_progresses {s : State} (h : Underway s) (hp : s.seq.phase = .measHigh) (rx : Bool) :
    Progresses s (measHighPhase rx s) := by
  have hbusy : s.seq.phase ≠ .idle := by simp [hp]
  unfold measHighPhase
  split_ifs with hrx hlast
  · exact h.shiftBit_progresses hp _
  · exact h.errorExit_progresses hbusy _
  · exact h.countTick_progresses hbusy (by simp [hp]) (by rwa [phaseLimit_measHigh hp])

theorem Underway.calcPhase_progresses {s t : State} (h : Underway s) (hp : s.seq.phase = .calc)
    (ht : calcPhase s = .next t) : Progresses s t := by
  have hbusy : s.seq.phase ≠ .idle := by simp [hp]
  have hafter := h.after_lt hbusy
  have ends {u : State} (hu : u.seq.phase = .idle) : Progresses s u :=
    ⟨by rw [edgesLeft_idle hu]; omega, by simp [hu]⟩
  rcases calcPhase_next ht with ⟨hc, rfl⟩ | ⟨-, ⟨-, -, rfl⟩ | ⟨-, -, rfl⟩ | ⟨-, rfl⟩ | ⟨-, rfl⟩⟩
  · exact h.countTick_progresses hbusy (by simp [hp]) (by rwa [phaseLimit_calc hp])
  all_goals exact ends rfl

theorem Underway.sequencer_progresses {rx : Bool} {s t : State} (h : Underway s) (hs : s.seq.phase ≠ .idle)
    (ht : sequencer rx s = .next t) : Progresses s t := by
  rcases sequencer_next ht with
    ⟨hp, -⟩ | ⟨hp, rfl⟩ | ⟨hp, rfl⟩ | ⟨hp, rfl⟩ | ⟨hp, rfl⟩ | ⟨hp, rfl⟩ | ⟨hp, rfl⟩ | ⟨hp, hc⟩
  · exact absurd hp hs
  · exact h.precheckPhase_progresses hp rx
  · exact h.chargePhase_progresses hp rx
  · exact h.addrLowPhase_progresses hp
  · exact h.addrHighPhase_progresses hp
  · exact h.waitHighPhase_progresses hp rx
  · exact h.measHighPhase_progresses hp rx
  · exact h.calcPhase_progresses hp hc

/-! ### The end of the attempt -/

/-- How a READ ends, whatever its outcome. -/
structure Ended (t : State) : Prop where
  phase : t.seq.phase = .idle
  done : t.done = true
  tx : t.tx = false
  idleUs : t.idleUs = 0#24

/-- An edge of an attempt answers a next state, also at the precheck. -/
theorem Underway.sequencer_isNext {s : State} (h : Underway s) (rx : Bool) : ∃ t, sequencer rx s = .next t := by
  by_cases hp : s.seq.phase = .precheck
  · exact ⟨precheckPhase rx s, by rw [sequencer, hp]⟩
  · exact Machine.sequencer_isNext rx (h.inv hp)

/-- An edge of an attempt keeps it under way or ends it. -/
theorem Underway.sequencer_underway_or_ended {rx : Bool} {s t : State} (h : Underway s) (hs : s.seq.phase ≠ .idle)
    (ht : sequencer rx s = .next t) : (t.seq.phase ≠ .idle ∧ Underway t) ∨ Ended t := by
  have hinv : PhaseInv t := by
    by_cases hp : s.seq.phase = .precheck
    · obtain rfl : precheckPhase rx s = t := by simpa [sequencer, hp] using ht
      exact precheckPhase_phaseInv rx h.legal h.op
    · exact sequencer_keeps_phaseInv h.legal (h.inv hp) ht
  rcases sequencer_next_of_busy hs ht with hg | ⟨-, e, rfl⟩ | ⟨-, ⟨-, rfl | rfl⟩ | ⟨ho, -⟩ | ⟨ho, -⟩⟩
  · exact .inl ⟨hg.busy, hg.params ▸ h.legal, hg.op.trans h.op, fun _ => hinv, (h.sequencer_progresses hs ht).first⟩
  · exact .inr ⟨rfl, rfl, rfl, rfl⟩
  · exact .inr ⟨rfl, rfl, rfl, rfl⟩
  · exact .inr ⟨rfl, rfl, rfl, rfl⟩
  · cases h.op.symm.trans ho
  · cases h.op.symm.trans ho

/-- What every edge does before the sequencer rule keeps the attempt under way. -/
theorem Underway.edgeBase {s : State} (h : Underway s) : Underway (edgeBase s) := ⟨h.legal, h.op, h.inv, h.first⟩

/-- An attempt ends within the edges it has left. -/
theorem Underway.ends {n : Nat} {s : State} (h : Underway s) (hs : s.seq.phase ≠ .idle) (hn : edgesLeft s ≤ n)
    (hr : ResetFree s n) :
    ∃ k, 1 ≤ k ∧ k ≤ n ∧ (∀ j < k, ∃ u, run j s = .next u ∧ u.seq.phase ≠ .idle) ∧ ∃ t, run k s = .next t ∧ Ended t := by
  induction n generalizing s with
  | zero =>
    have := h.after_lt hs
    omega
  | succ n ih =>
    have hrst : (nextInputs s).rst = false := by rw [nextInputs_eq_inputAt]; exact hr 0 n.succ_pos
    obtain ⟨t, ht⟩ := h.edgeBase.sequencer_isNext (nextInputs s).rx
    have hstep : step s = .next t := by rw [step_of_busy h.legal hrst hs, ht]
    have hrun : run 1 s = .next t := run_succ_of_step hstep 0
    have hless : edgesLeft t < edgesLeft s := (h.edgeBase.sequencer_progresses hs ht).less
    rcases h.edgeBase.sequencer_underway_or_ended hs ht with ⟨htb, htu⟩ | hend
    · rw [Nat.add_comm] at hr
      obtain ⟨k, hk1, hk, hbusy, u, hu, hend⟩ := ih htu htb (by omega) (hr.after_run hrun)
      refine ⟨1 + k, by omega, by omega, fun j hj => ?_, u, (run_add hrun k).trans hu, hend⟩
      cases j with
      | zero => exact ⟨s, rfl, hs⟩
      | succ j =>
        obtain ⟨v, hv, hvb⟩ := hbusy j (by omega)
        exact ⟨v, (run_succ_of_step hstep j).trans hv, hvb⟩
    · refine ⟨1, le_rfl, by omega, fun j hj => ?_, t, hrun, hend⟩
      obtain rfl : j = 0 := by omega
      exact ⟨s, rfl, hs⟩

/-- Settles O32: after the acceptance edge the bound is the number of edges left. -/
theorem readEndsWithinTheBound : Obligations.ReadEndsWithinTheBound := by
  rintro s bound h rfl hr
  have haccept := run_accepts h
  have hunder : Underway (advance (startAttempt s)) := ⟨h.1, rfl, fun hp => absurd rfl hp, by simp⟩
  have hleft : edgesLeft (advance (startAttempt s)) =
      1 + (s.params.tCharge + addressTicks s + listenEdges s.params) := rfl
  rw [listenEdges, bitEdges] at hleft
  obtain ⟨k, hk1, hk, hbusy, t, ht, hend⟩ := hunder.ends (by simp) (by rw [hleft]; omega) (hr.after_run haccept)
  refine ⟨k, hk1, hk, fun j hj => ?_, t, (run_add haccept k).trans ht, hend.phase, hend.done, hend.tx, hend.idleUs⟩
  obtain ⟨u, hu, hub⟩ := hbusy j hj
  exact ⟨u, (run_add haccept j).trans hu, hub⟩

end Sys2Proof.Machine
end
